-- ==== Sys2Proof/Word.lean ====
section
/-! DEFINITION. The byte, and the plainest arithmetic on bit strings kept as naturals (00_scope.md rules R7, R8). -/

namespace Sys2Proof

/-- One byte of a stream or memory (R7). -/
abbrev Byte := BitVec 8

/-- A 32-bit entry of a Huffman table (R75). -/
abbrev Entry := BitVec 32

end Sys2Proof
end

