-- ==== Sys2Proof/Config.lean ====
section
/-! DEFINITION. What a build fixes: the fixed numbers of 00_scope.md rule R6, the open parameters as plain data,
and the static dictionary's bytes, which no document holds. -/

namespace Sys2Proof.Config

/-- `IN_BUF_BYTES` (R6): size of the BitReader's input ring. -/
def inBufBytes : Nat := 4096
/-- `HUFF_ROOT_BITS` (R6, R182). -/
def huffRootBits : Nat := 8
/-- `CL_ROOT_BITS` (R6, R182). -/
def clRootBits : Nat := 5
/-- `MAX_CODE_LEN` (R6, R181). -/
def maxCodeLen : Nat := 15
/-- `MAX_ALLOWED_DISTANCE` (R6, R341). -/
def maxAllowedDistance : Nat := 0x7FFFFFFC
/-- `DICT_BYTES` (R6, R342). -/
def dictBytes : Nat := 122784
/-- `NUM_TRANSFORMS` (R6, R360). -/
def numTransforms : Nat := 121
/-- `CD_MAX_CHUNKS` (R6, R404). -/
def cdMaxChunks : Nat := 15
/-- `RB_SLACK` (R6, R386). -/
def rbSlack : Nat := 37

/-- `DICT` (R342, D8): the static dictionary ROM. The spec gives no byte of it ("every rule here holds for any
content"), so it has no body: nothing can be proved of a value it takes. -/
opaque dict : Nat → Byte

/-- The open parameters a model takes as arguments (R6; 93_implementation_defined.md section 1). They are fixed for a
build: no step writes them. -/
structure Params where
  /-- `LARGE_WINDOW_SUPPORTED` (D3). -/
  largeWindowSupported : Bool
  /-- `CD_CAP`, bytes of compound-dictionary storage (D5). -/
  cdCap : Nat
  /-- `LOOKAHEAD_BITS` (D7, R163). -/
  lookaheadBits : Nat
  deriving DecidableEq, Repr

/-- The defaults R6 states for the open parameters. -/
def Params.default : Params := { largeWindowSupported := true, cdCap := 2 ^ 30, lookaheadBits := 0 }

end Sys2Proof.Config
end

