-- ==== Sys2Proof/Machine/Huffman.lean ====
section
/-! DEFINITION. Canonical Huffman codes, the two-level table builder and the table lookup (41_huffman.md). -/

namespace Sys2Proof.Machine

/-- A Huffman table of the memories HT: its root width, the per-symbol code lengths it denotes (R30: architecturally the
table is that array) and its 32-bit entries (R75, R182). -/
structure HuffmanTable where
  rootBits : Nat
  lengths : List Nat
  entries : List Entry
  deriving DecidableEq, Repr

/-- The table that describes no code: what a table register holds before a header has written it. -/
def HuffmanTable.empty : HuffmanTable := { rootBits := 8, lengths := [], entries := [] }

/-! ## Canonical codes (R180, R181, R184) -/

/-- The symbols of code length `len`, ascending, counting from symbol `s`. -/
def symbolsFrom (len : Nat) : Nat → List Nat → List Nat
  | _, [] => []
  | s, l :: ls => if l = len then s :: symbolsFrom len (s + 1) ls else symbolsFrom len (s + 1) ls

/-- The used symbols with their lengths, ordered by length and then by value (R180). -/
def sortedSymbols (L : List Nat) : List (Nat × Nat) :=
  (List.range 15).flatMap fun k => (symbolsFrom (k + 1) 0 L).map fun s => (k + 1, s)

/-- The code value of the first word of length `len` (R180). -/
def firstCode (L : List Nat) : Nat → Nat
  | 0 => 0
  | len + 1 => (firstCode L len + if len = 0 then 0 else L.count len) * 2

/-- The canonical code value of symbol `s`: the first of its length plus its rank among that length (R180). -/
def codeValue (L : List Nat) (s : Nat) : Nat :=
  firstCode L (L.getD s 0) + (L.take s).count (L.getD s 0)

/-- `K` of R181, in units of 2^-15. -/
def kraftSum (L : List Nat) : Nat := ((L.filter (· ≠ 0)).map fun l => 2 ^ (15 - l)).sum

/-- The code is exactly complete (R181), its lengths being at most 15. -/
def completeCode (L : List Nat) : Bool := decide (kraftSum L = 32768) && L.all (· ≤ 15)

/-- The number of used symbols. -/
def usedSymbols (L : List Nat) : Nat := (L.filter (· ≠ 0)).length

/-- The low `n` bits of `v` in reverse order (R184). -/
def reverseBits : Nat → Nat → Nat
  | 0, _ => 0
  | n + 1, v => (v % 2) * 2 ^ n + reverseBits n (v / 2)

/-- The word of symbol `s` as a stream field, first stream bit least significant, with its length (R184); the word of a
one-symbol code has no bits (R181, R187). -/
def codeWord (L : List Nat) (s : Nat) : Option (Nat × Nat) :=
  if L.getD s 0 = 0 then none
  else if usedSymbols L = 1 then some (0, 0)
  else some (reverseBits (L.getD s 0) (codeValue L s), L.getD s 0)

/-- The walk R191 allows in place of the table: extend the code value by one stream bit until it is a word. -/
def canonicalWalk (L : List Nat) (v : Nat) : Nat → Nat → Nat → Option (Nat × Nat)
  | 0, _, _ => none
  | fuel + 1, len, code =>
    let code' := code * 2 + v / 2 ^ len % 2
    if firstCode L (len + 1) ≤ code' ∧ code' < firstCode L (len + 1) + L.count (len + 1) then
      (symbolsFrom (len + 1) 0 L)[code' - firstCode L (len + 1)]?.map fun s => (s, len + 1)
    else canonicalWalk L v fuel (len + 1) code'

/-- The symbol whose word the bits of `v` begin with, and the word's length (R191). -/
def canonicalRead (L : List Nat) (v : Nat) : Option (Nat × Nat) :=
  match sortedSymbols L with
  | [(_, s)] => some (s, 0)
  | _ => canonicalWalk L v 15 0 0

/-! ## The builder (R183, R185, R186, R187) -/

/-- `(codeLen << 16) | value` (R75, R183). -/
def packEntry (codeLen value : Nat) : Entry := BitVec.ofNat 32 (codeLen * 65536 + value)
def entryLen (e : Entry) : Nat := e.toNat / 65536
def entryValue (e : Entry) : Nat := e.toNat % 65536

/-- `Replicate` (R186): `item` at every `base + k*step` with `k*step < size`; `k` counts the positions of the list. -/
def replicateEntry (base step size : Nat) (item : Entry) : Nat → List Entry → List Entry
  | _, [] => []
  | k, e :: es =>
    (if base ≤ k ∧ k < base + size ∧ (k - base) % step = 0 then item else e) ::
      replicateEntry base step size item (k + 1) es

/-- `NextKey` (R186): the increment of the `len`-bit reversal of `key`. -/
def nextKey (key : Nat) : Nat → Nat
  | 0 => 0
  | n + 1 => if key / 2 ^ n % 2 = 1 then nextKey key n else key % 2 ^ n + 2 ^ n

/-- The loop of `NextTableBitSize` (R186); the first argument is how many lengths are left below 15. -/
def nextTableBitSizeFrom (count : List Nat) (rootBits : Nat) : Nat → Nat → Int → Nat
  | 0, len, _ => len - rootBits
  | fuel + 1, len, left =>
    let left' := left - (count.getD len 0 : Int)
    if left' ≤ 0 then len - rootBits else nextTableBitSizeFrom count rootBits fuel (len + 1) (left' * 2)

/-- `NextTableBitSize` (R186). -/
def nextTableBitSize (count : List Nat) (len rootBits : Nat) : Nat :=
  nextTableBitSizeFrom count rootBits (15 - len) len (2 ^ (len - rootBits) : Nat)

/-- The variables of `BuildTable` (R185). -/
structure Builder where
  entries : List Entry
  key : Nat
  low : Option Nat
  cur : Nat
  tableSize : Nat
  count : List Nat
  deriving DecidableEq, Repr

/-- One symbol of length at most `rootBits` (R185, first loop). -/
def addShort (b : Builder) (len sym : Nat) : Builder :=
  { b with
    entries := replicateEntry b.key (2 ^ len) b.tableSize (packEntry len sym) 0 b.entries
    key := nextKey b.key len }

/-- One symbol longer than `rootBits`: a new second-level table when the root index changes (R185, second loop). -/
def addLong (rootBits : Nat) (b : Builder) (len sym : Nat) : Builder :=
  let low := b.key % 2 ^ rootBits
  let b1 :=
    if b.low = some low then b
    else
      let cur := b.cur + b.tableSize
      let subBits := nextTableBitSize b.count len rootBits
      { b with
        entries :=
          (b.entries ++ List.replicate (2 ^ subBits) 0).set low (packEntry (subBits + rootBits) (cur - low))
        low := some low
        cur := cur
        tableSize := 2 ^ subBits }
  { b1 with
    entries :=
      replicateEntry (b1.cur + b1.key / 2 ^ rootBits) (2 ^ (len - rootBits)) b1.tableSize
        (packEntry (len - rootBits) sym) 0 b1.entries
    key := nextKey b1.key len
    count := b1.count.set len (b1.count.getD len 0 - 1) }

def addSymbol (rootBits : Nat) (b : Builder) (p : Nat × Nat) : Builder :=
  if p.1 ≤ rootBits then addShort b p.1 p.2 else addLong rootBits b p.1 p.2

/-- `BuildTable(L, a, rootBits)` (R185), the alphabet size being the length of `L`; a one-symbol code fills the root with
that symbol at 0 bits (R187). -/
def buildEntries (L : List Nat) (rootBits : Nat) : List Entry :=
  match sortedSymbols L with
  | [(_, s)] => List.replicate (2 ^ rootBits) (packEntry 0 s)
  | sorted =>
    (sorted.foldl (addSymbol rootBits)
      { entries := List.replicate (2 ^ rootBits) 0
        key := 0
        low := none
        cur := 0
        tableSize := 2 ^ rootBits
        count := (List.range 16).map L.count }).entries

/-- The table `BuildTable` makes of the length array `L`. -/
def HuffmanTable.build (L : List Nat) (rootBits : Nat) : HuffmanTable :=
  { rootBits := rootBits, lengths := L, entries := buildEntries L rootBits }

/-! ## The lookup (R190) -/

/-- The lookups of `ReadSymbol` (R190) on a 15-bit peek `v`: the symbol and the number of bits to drop; `none` where an
index leaves the table (R71: no rule reaches it). -/
def HuffmanTable.lookup (T : HuffmanTable) (v : Nat) : Option (Nat × Nat) :=
  match T.entries[v % 2 ^ T.rootBits]? with
  | none => none
  | some e =>
    if entryLen e ≤ T.rootBits then some (entryValue e, entryLen e)
    else
      match T.entries[v % 2 ^ T.rootBits + entryValue e + v % 2 ^ entryLen e / 2 ^ T.rootBits]? with
      | none => none
      | some e2 => some (entryValue e2, T.rootBits + entryLen e2)

/-- The word of symbol `s` in table `T`, as a stream field with its length. -/
def HuffmanTable.word (T : HuffmanTable) (s : Nat) : Option (Nat × Nat) := codeWord T.lengths s

/-- Table `T` reads back every word of its code, whatever bits follow the word (R191, as a property of one table). -/
def HuffmanTable.Reads (T : HuffmanTable) : Prop :=
  ∀ s w n, T.word s = some (w, n) → n ≤ 15 ∧ w < 2 ^ n ∧ ∀ v < 2 ^ 15, v % 2 ^ n = w → T.lookup v = some (s, n)

/-- Table `T` answers every 15-bit peek with a symbol of its alphabet and at most 15 bits (R201). -/
def HuffmanTable.Total (T : HuffmanTable) : Prop :=
  ∀ v < 2 ^ 15, ∃ s n, T.lookup v = some (s, n) ∧ s < T.lengths.length ∧ n ≤ 15

end Sys2Proof.Machine
end

