-- ==== Sys2Proof/Syntax.lean ====
section
/-! DEFINITION. The instruction set: one constructor of `Instr` for each row of spec/opcode_table.json, with the
row's variable fields as operands. Also the error kinds of R431 and the byte source's answers of R150, which
operands mention. -/

namespace Sys2Proof

/-- The sixteen error kinds, in the order of their codes 1 to 16 (60_exceptions.md rule R431). -/
inductive ErrorKind where
  | corruptWindowBits
  | corruptMetablockLength
  | corruptPadding
  | duplicateSimpleHuffmanSymbol
  | incompleteHuffmanCode
  | contextMapOverflow
  | invalidDistance
  | copyLengthExceedsBlock
  | dictionaryAddressOutOfRange
  | compoundDictionaryOverflow
  | readFailed
  | unexpectedEOF
  | excessiveTrailingInput
  | alreadyClosed
  | doubleInitialization
  | invalidRuntimeStateTransition
  deriving DecidableEq, Repr

/-- One answer of the byte source to a pull `SourceRead(max)` (R150, D2). An answer of no byte is `NoData`. -/
inductive SourceAnswer where
  | bytes (bs : List Byte)
  | noData
  | eof
  | fail
  deriving DecidableEq, Repr

/-- The elements of the wire format and the host commands: one constructor per row of spec/opcode_table.json. Operands
are the row's variable bit fields, as numbers; a symbol coded by a Huffman word (`S` in the table) is an operand where
the row covers more than one symbol. -/
inductive Instr where
  -- Stream header (R112, R113, R220)
  | wbits16
  | wbits18
  | wbits19
  | wbits20
  | wbits21
  | wbits22
  | wbits23
  | wbits24
  | wbits17
  | wbits10
  | wbits11
  | wbits12
  | wbits13
  | wbits14
  | wbits15
  | wbitsLarge (w : Nat)
  | wbitsReserved
  -- Meta-block header (R114, R224 to R228)
  | islast (a : Bool)
  | islastempty (a : Bool)
  | mnibbles_0
  | mnibbles_1
  | mnibbles_2
  | mnibbles_3
  | mlenm1_4n (m : Nat)
  | mlenm1_5n (m : Nat)
  | mlenm1_6n (m : Nat)
  | isuncompressed (a : Bool)
  | reserved
  | mskipbytes_0
  | mskipbytes_1
  | mskipbytes_2
  | mskipbytes_3
  | mskiplenm1_1b (k : Nat)
  | mskiplenm1_2b (k : Nat)
  | mskiplenm1_3b (k : Nat)
  -- Alignment (R157, R392)
  | pad (n : Nat)
  -- Raw and skipped bytes (R126, R230, R231)
  | raw (b : Byte)
  | skip (b : Byte)
  -- Alignment (R157, R392)
  | finalpad (n : Nat)
  -- varlen8 and its users (R116, R237, R238, R251)
  | varlen8_1
  | varlen8_2
  | varlen8_n1 (x : Nat)
  | varlen8_n2 (x : Nat)
  | varlen8_n3 (x : Nat)
  | varlen8_n4 (x : Nat)
  | varlen8_n5 (x : Nat)
  | varlen8_n6 (x : Nat)
  | varlen8_n7 (x : Nat)
  | nbltypes (v : Nat)
  | ntrees (v : Nat)
  -- Fixed fields of the compressed header (R122, R123, R242, R244, R252, R257)
  | npostfix (p : Nat)
  | ndirecthi (d : Nat)
  | cmodeLsb6
  | cmodeMsb6
  | cmodeUtf8
  | cmodeSigned
  | rlemaxflag (a : Bool)
  | rlemaxm1 (r : Nat)
  -- Elements coded by a Huffman symbol (R120, R121, R123, R198, R199, R239, R254, R284, R290, R295)
  | cmapZero
  | cmapRun1 (x : Nat)
  | cmapRun2 (x : Nat)
  | cmapRun3 (x : Nat)
  | cmapRun4 (x : Nat)
  | cmapRun5 (x : Nat)
  | cmapRun6 (x : Nat)
  | cmapRun7 (x : Nat)
  | cmapRun8 (x : Nat)
  | cmapRun9 (x : Nat)
  | cmapRun10 (x : Nat)
  | cmapRun11 (x : Nat)
  | cmapRun12 (x : Nat)
  | cmapRun13 (x : Nat)
  | cmapRun14 (x : Nat)
  | cmapRun15 (x : Nat)
  | cmapRun16 (x : Nat)
  | cmapValue (c : Nat)
  -- Fixed fields of the compressed header (R122, R123, R242, R244, R252, R257)
  | imtf (a : Bool)
  -- Prefix-code descriptions (R117 to R119, R193 to R197)
  | hskip_0
  | hskip_1
  | hskip_2
  | hskip_3
  | nsymm1_0
  | nsymm1_1
  | nsymm1_2
  | nsymm1_3
  | symbol (s : Nat)
  | treeselect (a : Bool)
  | cllen_0
  | cllen_1
  | cllen_2
  | cllen_3
  | cllen_4
  | cllen_5
  -- Elements coded by a Huffman symbol (R120, R121, R123, R198, R199, R239, R254, R284, R290, R295)
  | clsym_0
  | clsym_1
  | clsym_2
  | clsym_3
  | clsym_4
  | clsym_5
  | clsym_6
  | clsym_7
  | clsym_8
  | clsym_9
  | clsym_10
  | clsym_11
  | clsym_12
  | clsym_13
  | clsym_14
  | clsym_15
  | clsym_16 (x : Nat)
  | clsym_17 (x : Nat)
  | btypePrev
  | btypeNext
  | btypeAbs (t : Nat)
  | blen_0 (x : Nat)
  | blen_1 (x : Nat)
  | blen_2 (x : Nat)
  | blen_3 (x : Nat)
  | blen_4 (x : Nat)
  | blen_5 (x : Nat)
  | blen_6 (x : Nat)
  | blen_7 (x : Nat)
  | blen_8 (x : Nat)
  | blen_9 (x : Nat)
  | blen_10 (x : Nat)
  | blen_11 (x : Nat)
  | blen_12 (x : Nat)
  | blen_13 (x : Nat)
  | blen_14 (x : Nat)
  | blen_15 (x : Nat)
  | blen_16 (x : Nat)
  | blen_17 (x : Nat)
  | blen_18 (x : Nat)
  | blen_19 (x : Nat)
  | blen_20 (x : Nat)
  | blen_21 (x : Nat)
  | blen_22 (x : Nat)
  | blen_23 (x : Nat)
  | blen_24 (x : Nat)
  | blen_25 (x : Nat)
  | cmdCell0 (sym : Nat)
  | cmdCell1 (sym : Nat)
  | cmdCell2 (sym : Nat)
  | cmdCell3 (sym : Nat)
  | cmdCell4 (sym : Nat)
  | cmdCell5 (sym : Nat)
  | cmdCell6 (sym : Nat)
  | cmdCell7 (sym : Nat)
  | cmdCell8 (sym : Nat)
  | cmdCell9 (sym : Nat)
  | cmdCell10 (sym : Nat)
  -- Insert and copy lengths (R281, R282)
  | inslen0 (i : Nat)
  | inslen1 (i : Nat)
  | inslen2 (i : Nat)
  | inslen3 (i : Nat)
  | inslen4 (i : Nat)
  | inslen5 (i : Nat)
  | inslen6 (i : Nat)
  | inslen7 (i : Nat)
  | inslen8 (i : Nat)
  | inslen9 (i : Nat)
  | inslen10 (i : Nat)
  | inslen11 (i : Nat)
  | inslen12 (i : Nat)
  | inslen13 (i : Nat)
  | inslen14 (i : Nat)
  | inslen15 (i : Nat)
  | inslen16 (i : Nat)
  | inslen17 (i : Nat)
  | inslen18 (i : Nat)
  | inslen19 (i : Nat)
  | inslen20 (i : Nat)
  | inslen21 (i : Nat)
  | inslen22 (i : Nat)
  | inslen23 (i : Nat)
  | copylen0 (c : Nat)
  | copylen1 (c : Nat)
  | copylen2 (c : Nat)
  | copylen3 (c : Nat)
  | copylen4 (c : Nat)
  | copylen5 (c : Nat)
  | copylen6 (c : Nat)
  | copylen7 (c : Nat)
  | copylen8 (c : Nat)
  | copylen9 (c : Nat)
  | copylen10 (c : Nat)
  | copylen11 (c : Nat)
  | copylen12 (c : Nat)
  | copylen13 (c : Nat)
  | copylen14 (c : Nat)
  | copylen15 (c : Nat)
  | copylen16 (c : Nat)
  | copylen17 (c : Nat)
  | copylen18 (c : Nat)
  | copylen19 (c : Nat)
  | copylen20 (c : Nat)
  | copylen21 (c : Nat)
  | copylen22 (c : Nat)
  | copylen23 (c : Nat)
  -- Elements coded by a Huffman symbol (R120, R121, R123, R198, R199, R239, R254, R284, R290, R295)
  | lit (b : Byte)
  -- Distances (R125, R300 to R306)
  | distImplicit
  | distShort0
  | distShort1
  | distShort2
  | distShort3
  | distShort4
  | distShort5
  | distShort6
  | distShort7
  | distShort8
  | distShort9
  | distShort10
  | distShort11
  | distShort12
  | distShort13
  | distShort14
  | distShort15
  | distDirect (sym : Nat)
  | distLong (sym : Nat) (x : Nat)
  -- Host commands (R400)
  | reset
  | init (src : List SourceAnswer)
  | enableLargeWindow
  | enableEagerOutput
  | attachDictionaryChunk (chunk : List Byte)
  | decompress (cap : Nat)
  | close
  -- Static-dictionary transforms (R344, R360, R361)
  | transform0
  | transform1
  | transform2
  | transform3
  | transform4
  | transform5
  | transform6
  | transform7
  | transform8
  | transform9
  | transform10
  | transform11
  | transform12
  | transform13
  | transform14
  | transform15
  | transform16
  | transform17
  | transform18
  | transform19
  | transform20
  | transform21
  | transform22
  | transform23
  | transform24
  | transform25
  | transform26
  | transform27
  | transform28
  | transform29
  | transform30
  | transform31
  | transform32
  | transform33
  | transform34
  | transform35
  | transform36
  | transform37
  | transform38
  | transform39
  | transform40
  | transform41
  | transform42
  | transform43
  | transform44
  | transform45
  | transform46
  | transform47
  | transform48
  | transform49
  | transform50
  | transform51
  | transform52
  | transform53
  | transform54
  | transform55
  | transform56
  | transform57
  | transform58
  | transform59
  | transform60
  | transform61
  | transform62
  | transform63
  | transform64
  | transform65
  | transform66
  | transform67
  | transform68
  | transform69
  | transform70
  | transform71
  | transform72
  | transform73
  | transform74
  | transform75
  | transform76
  | transform77
  | transform78
  | transform79
  | transform80
  | transform81
  | transform82
  | transform83
  | transform84
  | transform85
  | transform86
  | transform87
  | transform88
  | transform89
  | transform90
  | transform91
  | transform92
  | transform93
  | transform94
  | transform95
  | transform96
  | transform97
  | transform98
  | transform99
  | transform100
  | transform101
  | transform102
  | transform103
  | transform104
  | transform105
  | transform106
  | transform107
  | transform108
  | transform109
  | transform110
  | transform111
  | transform112
  | transform113
  | transform114
  | transform115
  | transform116
  | transform117
  | transform118
  | transform119
  | transform120
  deriving DecidableEq, Repr

end Sys2Proof
end

