-- ==== Sys2Proof/Machine/State.lean ====
section
/-! DEFINITION. The architectural state (10_state.md; the spaces of 20_memory.md rule R70), the reasons a step can stop,
and the state after reset (R49, R480). -/

namespace Sys2Proof.Machine

/-- A byte memory: (address, byte) pairs, addresses strictly rising, no entry equal to 0, which is what an unlisted
address reads as (assumption log 8). -/
abbrev Memory := List Host.Cell

/-- `runningState` (R20). -/
inductive RunningState where
  | uninitialized
  | initialized
  | metablockHeader
  | metablockHuffmanData
  | mainLoop
  | insertLoop
  | copyLoop
  | useDictionary
  | compoundDictionaryCopy
  | uncompressed
  | metadata
  | writeOutput
  | blockStart
  | finished
  | closed
  | error (k : ErrorKind)
  deriving DecidableEq, Repr

/-- The three symbol categories (R27): L literal, I command, D distance. -/
inductive Cat where
  | L
  | I
  | D
  deriving DecidableEq, Repr

/-- One register per category (R27, R31). -/
structure PerCat (α : Type) where
  L : α
  I : α
  D : α
  deriving DecidableEq, Repr

/-- `hphase`, the phases 0 to 10 of the compressed header (R37). -/
inductive HPhase where
  | partL
  | partI
  | partD
  | distParams
  | ctxModes
  | cmapL
  | cmapD
  | treesL
  | treesI
  | treesD
  | finalize
  deriving DecidableEq, Repr

/-- `pcPhase` (R38). -/
inductive PcPhase where
  | start
  | clLengths
  | symLengths
  deriving DecidableEq, Repr

/-- Which field of the element step in progress comes next, with what the step has read so far and holds in no register
(the model's own, assumption log 10; the sequence is the grammar's, R110). `start`: no element step is in progress. -/
inductive Field where
  | start
  | isLastEmpty
  | mnibbles
  | mlen (nibbles : Nat)
  | isUncompressed
  | reserved
  | mskipbytes
  | mskiplen (bytes : Nat)
  | pad
  | varlenResult (v : Nat)
  | ndirecthi
  | rlemaxm1
  | nsymm1
  | symbol (nsym : Nat) (read : List Nat)
  | treeSelect (read : List Nat)
  | blockCount (t : Nat)
  | insLen
  | copyLen
  | atEnd
  deriving DecidableEq, Repr

/-- `STATUS` of a `Decompress` (R43, R405). -/
inductive Status where
  | needMoreInput
  | needMoreOutput
  | done
  | error (k : ErrorKind)
  deriving DecidableEq, Repr

/-- What the latest host command returned (R400): nothing, `Ok`, `Error(kind)`, or `(BYTES_WRITTEN, STATUS)`. -/
inductive CommandResult where
  | none
  | ok
  | error (k : ErrorKind)
  | decompressed (bytesWritten : Nat) (status : Status)
  deriving DecidableEq, Repr

/-- The status values the latest `Decompress` to return left for the host (R43): `BYTES_WRITTEN` and `STATUS`. -/
structure CallReport where
  bytesWritten : Nat
  status : Status
  deriving DecidableEq, Repr

/-- A host command on its way to the engine (R400): its 3-bit code and the operands of which the command uses its own. -/
structure Command where
  code : BitVec 3
  source : List SourceAnswer
  chunk : List Byte
  cap : Nat
  deriving DecidableEq, Repr

/-- The registers of DecoderState that an element step writes (10_state.md sections 1 to 9), and the byte memories RB, CM
and CD and the tables HT. Widths are kept as ranges over naturals (D13; assumption log 21). -/
structure DecoderState where
  -- control position (R20, R21, R40)
  runningState : RunningState
  resumeState : RunningState
  bitpos : Nat
  field : Field
  -- configuration (R22)
  cfgLargeWindow : Bool
  cfgEager : Bool
  isLargeWindow : Bool
  -- stream and meta-block (R25, R26)
  windowBits : Nat
  maxBackwardDistance : Nat
  isLast : Bool
  isUncompressed : Bool
  isMetadata : Bool
  metaBlockLength : Nat
  -- block partitions (R27)
  numBlockTypes : PerCat Nat
  blockType : PerCat Nat
  prevBlockType : PerCat Nat
  blockLength : PerCat Nat
  -- distance parameters (R28)
  npostfix : Nat
  ndirect : Nat
  distAlphabetMax : Nat
  distAlphabetLimit : Nat
  -- context modes and maps (R29)
  contextModes : Memory
  contextMapL : Memory
  contextMapD : Memory
  numLiteralTrees : Nat
  numDistTrees : Nat
  -- Huffman tables (R30, R31)
  literalTrees : List HuffmanTable
  commandTrees : List HuffmanTable
  distanceTrees : List HuffmanTable
  blockTypeTree : PerCat HuffmanTable
  blockLenTree : PerCat HuffmanTable
  -- command, distance, copy (R32)
  cmdCode : Nat
  insertLength : Nat
  copyLength : Nat
  distImplicit : Bool
  distContext : Nat
  distSymbol : Nat
  distance : Nat
  maxDistance : Nat
  j : Nat
  -- distance ring (R33)
  distRing : Vector Nat 4
  distRbIdx : Fin 4
  -- output history and ring buffer (R34)
  H : List Byte
  pos : Nat
  flushed : Nat
  RB : Memory
  -- compound dictionary (R35)
  cdNumChunks : Nat
  cdChunkOffsets : Vector Nat 16
  CD : List Byte
  cdBrIndex : Nat
  cdBrOffset : Nat
  cdBrLength : Nat
  cdBrCopied : Nat
  -- header sequencer (R37)
  hphase : HPhase
  hsub : Nat
  hidx : Nat
  -- prefix-code reader (R38)
  pcActive : Bool
  pcPhase : PcPhase
  pcAlphaMax : Nat
  pcAlphaLimit : Nat
  pcHskip : Nat
  clIdx : Nat
  clLengths : Memory
  clSpace : Int
  clNum : Nat
  codeLengths : Memory
  symIdx : Nat
  prevCodeLen : Nat
  repeatCount : Nat
  repeatCodeLen : Nat
  space : Int
  -- context-map reader (R39)
  cmNumTrees : Nat
  cmRleMax : Nat
  cmIdx : Nat
  cmSize : Nat
  cmTree : HuffmanTable
  -- `map`, the context map being read (R251 to R258)
  cmMap : Memory
  -- call registers (R40)
  outCap : Nat
  outCount : Nat
  deriving DecidableEq, Repr

/-- The whole machine: the registers, the checkpoint of the element step in progress, the two streams with the source's
status, the host's buffer, and the environment as plain data (assumption logs 3, 5, 6). -/
structure State where
  /-- the registers (10_state.md) -/
  st : DecoderState
  /-- the registers as they stood when the element step in progress began (R12; assumption log 1) -/
  ckpt : Option DecoderState
  /-- `IN`, the bytes pulled so far (R24) -/
  IN : List Byte
  /-- `inLen`, `srcEOF`, `srcFail` (R23): written by `Pull` only, so no element step takes them back -/
  inLen : Nat
  srcEOF : Bool
  srcFail : Bool
  /-- the future answers of the byte source (R150); empty: no data -/
  source : List SourceAnswer
  /-- `OUT`, everything delivered so far (R73) -/
  OUT : List Byte
  /-- the bytes the latest `Decompress` wrote to the host's buffer (R388) -/
  HOSTBUF : List Byte
  /-- a `Decompress` is in progress (R405) -/
  inCall : Bool
  /-- what the latest command returned (R400, R43) -/
  result : CommandResult
  /-- what the latest `Decompress` to return left in the status values (R43); none: none has returned since reset (assumption
  log 29) -/
  report : Option CallReport
  /-- host commands not yet issued (R144, R400) -/
  script : List Command
  /-- the build's open parameters (R6) -/
  params : Config.Params
  /-- bytes of the DICT space supplied by the build, by address; the others are `Config.dict` (R342, D8) -/
  rom : List (Nat × Byte)
  deriving DecidableEq, Repr

/-- Why a step stops. Each names a situation of which the spec says that it cannot occur; stopping there is safe. -/
inductive Fault where
  /-- raised by `step` where a table or tree index leaves its memory (R71: "A model may make an out-of-range `MemRead` a
  stuck state; no rule reaches it"). Safe. -/
  | memRange
  /-- raised by `step` at a raw read at an unaligned cursor (R85: "A model may treat `ReadRawByte()` at an unaligned
  position as a stuck state"). Safe. -/
  | unaligned
  /-- raised by `step` at a control position no rule gives an element step to (R41, R409: no rule reaches it). Safe. -/
  | noElementStep
  deriving DecidableEq, Repr

/-- Why the model gives no meaning. -/
inductive Refusal where
  /-- an instruction without a meaning yet; raised by `exec`. Safe. -/
  | notModelled (mnemonic : String)
  /-- raised by `step` on a host command word whose code is 7: R400 defines codes 0 to 6 only. Safe. -/
  | illegalCommand
  deriving DecidableEq, Repr

/-- The registers after reset (R49, R481). Fields R49 leaves unspecified: assumption log 7. -/
def DecoderState.reset : DecoderState where
  runningState := .uninitialized
  resumeState := .uninitialized
  bitpos := 0
  field := .start
  cfgLargeWindow := false
  cfgEager := false
  isLargeWindow := false
  windowBits := 0
  maxBackwardDistance := 0
  isLast := false
  isUncompressed := false
  isMetadata := false
  metaBlockLength := 0
  numBlockTypes := ⟨1, 1, 1⟩
  blockType := ⟨0, 0, 0⟩
  prevBlockType := ⟨1, 1, 1⟩
  blockLength := ⟨0, 0, 0⟩
  npostfix := 0
  ndirect := 0
  distAlphabetMax := 0
  distAlphabetLimit := 0
  contextModes := []
  contextMapL := []
  contextMapD := []
  numLiteralTrees := 0
  numDistTrees := 0
  literalTrees := []
  commandTrees := []
  distanceTrees := []
  blockTypeTree := ⟨.empty, .empty, .empty⟩
  blockLenTree := ⟨.empty, .empty, .empty⟩
  cmdCode := 0
  insertLength := 0
  copyLength := 0
  distImplicit := false
  distContext := 0
  distSymbol := 0
  distance := 0
  maxDistance := 0
  j := 0
  distRing := #v[16, 15, 11, 4]
  distRbIdx := 3
  H := []
  pos := 0
  flushed := 0
  RB := []
  cdNumChunks := 0
  cdChunkOffsets := .replicate 16 0
  CD := []
  cdBrIndex := 0
  cdBrOffset := 0
  cdBrLength := 0
  cdBrCopied := 0
  hphase := .partL
  hsub := 0
  hidx := 0
  pcActive := false
  pcPhase := .start
  pcAlphaMax := 0
  pcAlphaLimit := 0
  pcHskip := 0
  clIdx := 0
  clLengths := []
  clSpace := 0
  clNum := 0
  codeLengths := []
  symIdx := 0
  prevCodeLen := 0
  repeatCount := 0
  repeatCodeLen := 0
  space := 0
  cmNumTrees := 0
  cmRleMax := 0
  cmIdx := 0
  cmSize := 0
  cmTree := .empty
  cmMap := []
  outCap := 0
  outCount := 0

/-- The machine right after reset (R480): registers at R49's values, no byte pulled or delivered, no source bound, no
command pending; the parameters at R6's defaults and no byte of DICT supplied (assumption logs 3, 5, 6, 7, 19, 29). -/
def State.reset : State where
  st := .reset
  ckpt := none
  IN := []
  inLen := 0
  srcEOF := false
  srcFail := false
  source := []
  OUT := []
  HOSTBUF := []
  inCall := false
  result := .none
  report := none
  script := []
  params := .default
  rom := []

end Sys2Proof.Machine
end

