-- ==== Sys2Proof/Machine/Tables.lean ====
section
/-! DEFINITION. The constant tables (10_state.md rule R36; space LUT and TR of 20_memory.md rule R70): length tables,
dictionary geometry, transforms, context lookup tables, distance short codes, code-length order. -/

namespace Sys2Proof.Machine

/-- Entry `i` of a constant table; 0 past its end, where no rule reads. -/
def tableAt (t : List Nat) (i : Nat) : Nat := t.getD i 0

/-- `INS_BASE` (R281). -/
def insBase : List Nat :=
  [0, 1, 2, 3, 4, 5, 6, 8, 10, 14, 18, 26] ++ [34, 50, 66, 98, 130, 194, 322, 578, 1090, 2114, 6210, 22594]
/-- `INS_XBITS` (R281). -/
def insXbits : List Nat :=
  [0, 0, 0, 0, 0, 0, 1, 1, 2, 2, 3, 3] ++ [4, 4, 5, 5, 6, 7, 8, 9, 10, 12, 14, 24]
/-- `COPY_BASE` (R282). -/
def copyBase : List Nat :=
  [2, 3, 4, 5, 6, 7, 8, 9, 10, 12, 14, 18] ++ [22, 30, 38, 54, 70, 102, 134, 198, 326, 582, 1094, 2118]
/-- `COPY_XBITS` (R282). -/
def copyXbits : List Nat :=
  [0, 0, 0, 0, 0, 0, 0, 0, 1, 1, 2, 2] ++ [3, 3, 4, 4, 5, 5, 6, 7, 8, 9, 10, 24]
/-- `BLEN_BASE` (R240). -/
def blenBase : List Nat :=
  [1, 5, 9, 13, 17, 25, 33, 41, 49, 65, 81, 97, 113] ++
  [145, 177, 209, 241, 305, 369, 497, 753, 1265, 2289, 4337, 8433, 16625]
/-- `BLEN_XBITS` (R240). -/
def blenXbits : List Nat :=
  [2, 2, 2, 2, 3, 3, 3, 3, 4, 4, 4, 4, 5] ++ [5, 5, 5, 6, 6, 7, 8, 9, 10, 11, 12, 13, 24]

/-- High part of the insert code of each cell of 64 command symbols, and of the copy code (R280). -/
def cellInsHigh : List Nat := [0, 0, 0, 0, 1, 1, 0, 2, 1, 2, 2]
def cellCopyHigh : List Nat := [0, 1, 0, 1, 0, 1, 2, 0, 2, 1, 2]

/-- Insert code, copy code and implicit-distance flag of command symbol `c` (R280). -/
def insertCode (c : Nat) : Nat := tableAt cellInsHigh (c >>> 6) * 8 + (c >>> 3) % 8
def copyCode (c : Nat) : Nat := tableAt cellCopyHigh (c >>> 6) * 8 + c % 8
def implicitDistance (c : Nat) : Bool := decide (c >>> 6 < 2)

/-- Distance context of a copy length (R299). -/
def distContextOf (copyLength : Nat) : Nat := if copyLength ≤ 4 then copyLength - 2 else 3

/-- `CMD_LUT[c]` (R285): packed extra-bit counts, insert base, copy base, distance context minus 4 when implicit. -/
def cmdLut (c : Nat) : Nat × Nat × Nat × Int :=
  (tableAt insXbits (insertCode c) ||| tableAt copyXbits (copyCode c) <<< 8,
   tableAt insBase (insertCode c), tableAt copyBase (copyCode c),
   (if implicitDistance c then (-4 : Int) else 0) +
     (if tableAt copyBase (copyCode c) > 4 then 3 else (tableAt copyBase (copyCode c) : Int) - 2))

/-- `CL_ORDER` (R119, R196). -/
def clOrder : List Nat := [1, 2, 3, 4, 0, 5, 17, 6, 16, 7, 8, 9, 10, 11, 12, 13, 14, 15]

/-- `DIST_SHORT_IDX` and `DIST_SHORT_VAL` (R303). -/
def distShortIdx : List Nat := [0, 3, 2, 1, 0, 0, 0, 0, 0, 0, 3, 3, 3, 3, 3, 3]
def distShortVal : List Int := [0, 0, 0, 0, -1, 1, -2, 2, -3, 3, -1, 1, -2, 2, -3, 3]

/-- `NDBITS[0..24]` and `DOFFSET[0..24]` (R343). -/
def ndBits : List Nat :=
  [0, 0, 0, 0, 10, 10, 11, 11, 10, 10, 10, 10, 10] ++ [9, 9, 8, 7, 7, 8, 7, 7, 6, 6, 5, 5]
def dOffset : List Nat :=
  [0, 0, 0, 0, 0, 4096, 9216, 21504, 35840, 44032, 53248, 63488, 74752] ++
  [87040, 93696, 100864, 104704, 106752, 108928, 113536, 115968, 118528, 119872, 121280, 122016]

/-- `LUT0[0..127]` (R293). -/
def lut0Low : List Nat :=
  [0, 0, 0, 0, 0, 0, 0, 0, 0, 4, 4, 0, 0, 4, 0, 0] ++
  [0, 0, 0, 0, 0, 0, 0, 0, 0, 0, 0, 0, 0, 0, 0, 0] ++
  [8, 12, 16, 12, 12, 20, 12, 16, 24, 28, 12, 12, 32, 12, 36, 12] ++
  [44, 44, 44, 44, 44, 44, 44, 44, 44, 44, 32, 32, 24, 40, 28, 12] ++
  [12, 48, 52, 52, 52, 48, 52, 52, 52, 48, 52, 52, 52, 52, 52, 48] ++
  [52, 52, 52, 52, 52, 48, 52, 52, 52, 52, 52, 24, 12, 28, 12, 12] ++
  [12, 56, 60, 60, 60, 56, 60, 60, 60, 56, 60, 60, 60, 60, 60, 56] ++
  [60, 60, 60, 60, 60, 56, 60, 60, 60, 60, 60, 24, 12, 28, 12, 0]
/-- `LUT1[0..127]` (R293). -/
def lut1Low : List Nat :=
  [0, 0, 0, 0, 0, 0, 0, 0, 0, 0, 0, 0, 0, 0, 0, 0] ++
  [0, 0, 0, 0, 0, 0, 0, 0, 0, 0, 0, 0, 0, 0, 0, 0] ++
  [0, 1, 1, 1, 1, 1, 1, 1, 1, 1, 1, 1, 1, 1, 1, 1] ++
  [2, 2, 2, 2, 2, 2, 2, 2, 2, 2, 1, 1, 1, 1, 1, 1] ++
  [1, 2, 2, 2, 2, 2, 2, 2, 2, 2, 2, 2, 2, 2, 2, 2] ++
  [2, 2, 2, 2, 2, 2, 2, 2, 2, 2, 2, 1, 1, 1, 1, 1] ++
  [1, 3, 3, 3, 3, 3, 3, 3, 3, 3, 3, 3, 3, 3, 3, 3] ++
  [3, 3, 3, 3, 3, 3, 3, 3, 3, 3, 3, 1, 1, 1, 1, 0]

/-- `LUT0`, `LUT1`, `LUT2` (R293). -/
def lut0 (i : Nat) : Nat := if i < 128 then tableAt lut0Low i else if i < 192 then i % 2 else 2 + i % 2
def lut1 (i : Nat) : Nat := if i < 128 then tableAt lut1Low i else if i < 224 then 0 else 2
def lut2 (i : Nat) : Nat :=
  if i = 0 then 0 else if i < 16 then 1 else if i < 64 then 2 else if i < 128 then 3
  else if i < 192 then 4 else if i < 240 then 5 else if i < 255 then 6 else 7

/-- What a transform does with the word's bytes (R361). Codepoint-shift types do not exist (R365, D22). -/
inductive TransformKind where
  | identity
  | omitFirst (k : Nat)
  | omitLast (k : Nat)
  | uppercaseFirst
  | uppercaseAll
  deriving DecidableEq, Repr

/-- One entry of `TRANSFORMS`: the bytes put before the word, the change of the word, the bytes put after it (R360). -/
structure TransformRule where
  before : List Byte
  kind : TransformKind
  after : List Byte
  deriving DecidableEq, Repr

/-- `TRANSFORMS[0..10]` (R360). -/
def transforms0 : List TransformRule :=
  [⟨[], .identity, []⟩,
   ⟨[], .identity, [0x20]⟩,
   ⟨[0x20], .identity, [0x20]⟩,
   ⟨[], .omitFirst 1, []⟩,
   ⟨[], .uppercaseFirst, [0x20]⟩,
   ⟨[], .identity, [0x20, 0x74, 0x68, 0x65, 0x20]⟩,
   ⟨[0x20], .identity, []⟩,
   ⟨[0x73, 0x20], .identity, [0x20]⟩,
   ⟨[], .identity, [0x20, 0x6F, 0x66, 0x20]⟩,
   ⟨[], .uppercaseFirst, []⟩,
   ⟨[], .identity, [0x20, 0x61, 0x6E, 0x64, 0x20]⟩]
/-- `TRANSFORMS[11..21]` (R360). -/
def transforms11 : List TransformRule :=
  [⟨[], .omitFirst 2, []⟩,
   ⟨[], .omitLast 1, []⟩,
   ⟨[0x2C, 0x20], .identity, [0x20]⟩,
   ⟨[], .identity, [0x2C, 0x20]⟩,
   ⟨[0x20], .uppercaseFirst, [0x20]⟩,
   ⟨[], .identity, [0x20, 0x69, 0x6E, 0x20]⟩,
   ⟨[], .identity, [0x20, 0x74, 0x6F, 0x20]⟩,
   ⟨[0x65, 0x20], .identity, [0x20]⟩,
   ⟨[], .identity, [0x22]⟩,
   ⟨[], .identity, [0x2E]⟩,
   ⟨[], .identity, [0x22, 0x3E]⟩]
/-- `TRANSFORMS[22..32]` (R360). -/
def transforms22 : List TransformRule :=
  [⟨[], .identity, [0x0A]⟩,
   ⟨[], .omitLast 3, []⟩,
   ⟨[], .identity, [0x5D]⟩,
   ⟨[], .identity, [0x20, 0x66, 0x6F, 0x72, 0x20]⟩,
   ⟨[], .omitFirst 3, []⟩,
   ⟨[], .omitLast 2, []⟩,
   ⟨[], .identity, [0x20, 0x61, 0x20]⟩,
   ⟨[], .identity, [0x20, 0x74, 0x68, 0x61, 0x74, 0x20]⟩,
   ⟨[0x20], .uppercaseFirst, []⟩,
   ⟨[], .identity, [0x2E, 0x20]⟩,
   ⟨[0x2E], .identity, []⟩]
/-- `TRANSFORMS[33..43]` (R360). -/
def transforms33 : List TransformRule :=
  [⟨[0x20], .identity, [0x2C, 0x20]⟩,
   ⟨[], .omitFirst 4, []⟩,
   ⟨[], .identity, [0x20, 0x77, 0x69, 0x74, 0x68, 0x20]⟩,
   ⟨[], .identity, [0x27]⟩,
   ⟨[], .identity, [0x20, 0x66, 0x72, 0x6F, 0x6D, 0x20]⟩,
   ⟨[], .identity, [0x20, 0x62, 0x79, 0x20]⟩,
   ⟨[], .omitFirst 5, []⟩,
   ⟨[], .omitFirst 6, []⟩,
   ⟨[0x20, 0x74, 0x68, 0x65, 0x20], .identity, []⟩,
   ⟨[], .omitLast 4, []⟩,
   ⟨[], .identity, [0x2E, 0x20, 0x54, 0x68, 0x65, 0x20]⟩]
/-- `TRANSFORMS[44..54]` (R360). -/
def transforms44 : List TransformRule :=
  [⟨[], .uppercaseAll, []⟩,
   ⟨[], .identity, [0x20, 0x6F, 0x6E, 0x20]⟩,
   ⟨[], .identity, [0x20, 0x61, 0x73, 0x20]⟩,
   ⟨[], .identity, [0x20, 0x69, 0x73, 0x20]⟩,
   ⟨[], .omitLast 7, []⟩,
   ⟨[], .omitLast 1, [0x69, 0x6E, 0x67, 0x20]⟩,
   ⟨[], .identity, [0x0A, 0x09]⟩,
   ⟨[], .identity, [0x3A]⟩,
   ⟨[0x20], .identity, [0x2E, 0x20]⟩,
   ⟨[], .identity, [0x65, 0x64, 0x20]⟩,
   ⟨[], .omitFirst 9, []⟩]
/-- `TRANSFORMS[55..65]` (R360). -/
def transforms55 : List TransformRule :=
  [⟨[], .omitFirst 7, []⟩,
   ⟨[], .omitLast 6, []⟩,
   ⟨[], .identity, [0x28]⟩,
   ⟨[], .uppercaseFirst, [0x2C, 0x20]⟩,
   ⟨[], .omitLast 8, []⟩,
   ⟨[], .identity, [0x20, 0x61, 0x74, 0x20]⟩,
   ⟨[], .identity, [0x6C, 0x79, 0x20]⟩,
   ⟨[0x20, 0x74, 0x68, 0x65, 0x20], .identity, [0x20, 0x6F, 0x66, 0x20]⟩,
   ⟨[], .omitLast 5, []⟩,
   ⟨[], .omitLast 9, []⟩,
   ⟨[0x20], .uppercaseFirst, [0x2C, 0x20]⟩]
/-- `TRANSFORMS[66..76]` (R360). -/
def transforms66 : List TransformRule :=
  [⟨[], .uppercaseFirst, [0x22]⟩,
   ⟨[0x2E], .identity, [0x28]⟩,
   ⟨[], .uppercaseAll, [0x20]⟩,
   ⟨[], .uppercaseFirst, [0x22, 0x3E]⟩,
   ⟨[], .identity, [0x3D, 0x22]⟩,
   ⟨[0x20], .identity, [0x2E]⟩,
   ⟨[0x2E, 0x63, 0x6F, 0x6D, 0x2F], .identity, []⟩,
   ⟨[0x20, 0x74, 0x68, 0x65, 0x20], .identity, [0x20, 0x6F, 0x66, 0x20, 0x74, 0x68, 0x65, 0x20]⟩,
   ⟨[], .uppercaseFirst, [0x27]⟩,
   ⟨[], .identity, [0x2E, 0x20, 0x54, 0x68, 0x69, 0x73, 0x20]⟩,
   ⟨[], .identity, [0x2C]⟩]
/-- `TRANSFORMS[77..87]` (R360). -/
def transforms77 : List TransformRule :=
  [⟨[0x2E], .identity, [0x20]⟩,
   ⟨[], .uppercaseFirst, [0x28]⟩,
   ⟨[], .uppercaseFirst, [0x2E]⟩,
   ⟨[], .identity, [0x20, 0x6E, 0x6F, 0x74, 0x20]⟩,
   ⟨[0x20], .identity, [0x3D, 0x22]⟩,
   ⟨[], .identity, [0x65, 0x72, 0x20]⟩,
   ⟨[0x20], .uppercaseAll, [0x20]⟩,
   ⟨[], .identity, [0x61, 0x6C, 0x20]⟩,
   ⟨[0x20], .uppercaseAll, []⟩,
   ⟨[], .identity, [0x3D, 0x27]⟩,
   ⟨[], .uppercaseAll, [0x22]⟩]
/-- `TRANSFORMS[88..98]` (R360). -/
def transforms88 : List TransformRule :=
  [⟨[], .uppercaseFirst, [0x2E, 0x20]⟩,
   ⟨[0x20], .identity, [0x28]⟩,
   ⟨[], .identity, [0x66, 0x75, 0x6C, 0x20]⟩,
   ⟨[0x20], .uppercaseFirst, [0x2E, 0x20]⟩,
   ⟨[], .identity, [0x69, 0x76, 0x65, 0x20]⟩,
   ⟨[], .identity, [0x6C, 0x65, 0x73, 0x73, 0x20]⟩,
   ⟨[], .uppercaseAll, [0x27]⟩,
   ⟨[], .identity, [0x65, 0x73, 0x74, 0x20]⟩,
   ⟨[0x20], .uppercaseFirst, [0x2E]⟩,
   ⟨[], .uppercaseAll, [0x22, 0x3E]⟩,
   ⟨[0x20], .identity, [0x3D, 0x27]⟩]
/-- `TRANSFORMS[99..109]` (R360). -/
def transforms99 : List TransformRule :=
  [⟨[], .uppercaseFirst, [0x2C]⟩,
   ⟨[], .identity, [0x69, 0x7A, 0x65, 0x20]⟩,
   ⟨[], .uppercaseAll, [0x2E]⟩,
   ⟨[0xC2, 0xA0], .identity, []⟩,
   ⟨[0x20], .identity, [0x2C]⟩,
   ⟨[], .uppercaseFirst, [0x3D, 0x22]⟩,
   ⟨[], .uppercaseAll, [0x3D, 0x22]⟩,
   ⟨[], .identity, [0x6F, 0x75, 0x73, 0x20]⟩,
   ⟨[], .uppercaseAll, [0x2C, 0x20]⟩,
   ⟨[], .uppercaseFirst, [0x3D, 0x27]⟩,
   ⟨[0x20], .uppercaseFirst, [0x2C]⟩]
/-- `TRANSFORMS[110..120]` (R360). -/
def transforms110 : List TransformRule :=
  [⟨[0x20], .uppercaseAll, [0x3D, 0x22]⟩,
   ⟨[0x20], .uppercaseAll, [0x2C, 0x20]⟩,
   ⟨[], .uppercaseAll, [0x2C]⟩,
   ⟨[], .uppercaseAll, [0x28]⟩,
   ⟨[], .uppercaseAll, [0x2E, 0x20]⟩,
   ⟨[0x20], .uppercaseAll, [0x2E]⟩,
   ⟨[], .uppercaseAll, [0x3D, 0x27]⟩,
   ⟨[0x20], .uppercaseAll, [0x2E, 0x20]⟩,
   ⟨[0x20], .uppercaseFirst, [0x3D, 0x22]⟩,
   ⟨[0x20], .uppercaseAll, [0x3D, 0x27]⟩,
   ⟨[0x20], .uppercaseFirst, [0x3D, 0x27]⟩]

/-- `TRANSFORMS[0..120]` (R360). -/
def transforms : List TransformRule :=
  transforms0 ++ transforms11 ++ transforms22 ++ transforms33 ++ transforms44 ++ transforms55 ++
  transforms66 ++ transforms77 ++ transforms88 ++ transforms99 ++ transforms110

/-- Entry `n` of `TRANSFORMS`; no rule reads one past 120 (R344). -/
def transformRule (n : Nat) : TransformRule := transforms.getD n ⟨[], .identity, []⟩

end Sys2Proof.Machine
end

