-- ==== Sys2Proof/Machine/Ops.lean ====
section
/-! DEFINITION. The named operations over memories and registers: byte memories (20_memory.md rule R71), the window on the
stream and the element-step transaction (R12, R151, R152), raising an error (R440), suspending and returning (R405), the
pull (R155), emitting a byte and the fence (R383, R385), the distance ring (R323). -/

namespace Sys2Proof.Machine

/-! ## Byte memories (R71; assumption log 8) -/

/-- The canonical form: addresses strictly rising, no listed byte 0. -/
abbrev Memory.wf (m : Memory) : Prop := m.Pairwise (fun p q => p.1 < q.1) ∧ ∀ p ∈ m, p.2 ≠ 0

/-- The byte at address `a`. -/
def Memory.read : Memory → Nat → Byte
  | [], _ => 0
  | (k, b) :: m, a => if k = a then b else Memory.read m a

/-- The memory with byte `v` at address `a`, in canonical form. -/
def Memory.write : Memory → Nat → Byte → Memory
  | [], a, v => if v = 0 then [] else [(a, v)]
  | (k, b) :: m, a, v =>
    if a < k then (if v = 0 then (k, b) :: m else (a, v) :: (k, b) :: m)
    else if a = k then (if v = 0 then m else (a, v) :: m)
    else (k, b) :: Memory.write m a v

/-- The memory with byte `v` at the `n` addresses from `a` on. -/
def Memory.fill (m : Memory) (a : Nat) : Nat → Byte → Memory
  | 0, _ => m
  | n + 1, v => Memory.write (Memory.fill m a n v) (a + n) v

/-- The bytes at addresses `0 .. n-1`. -/
def Memory.toBytes (m : Memory) (n : Nat) : List Byte := (List.range n).map m.read

/-- The memory with the bytes `bs` from address `a` on. -/
def Memory.writeAll (m : Memory) (a : Nat) : List Byte → Memory
  | [] => m
  | b :: bs => Memory.writeAll (m.write a b) (a + 1) bs

/-! ## Registers per category -/

def PerCat.get {α : Type} (p : PerCat α) : Cat → α
  | .L => p.L
  | .I => p.I
  | .D => p.D

def PerCat.set {α : Type} (p : PerCat α) (k : Cat) (v : α) : PerCat α :=
  match k with
  | .L => { p with L := v }
  | .I => { p with I := v }
  | .D => { p with D := v }

/-- `RS` (R25, R380). -/
def DecoderState.RS (st : DecoderState) : Nat := 2 ^ st.windowBits

/-- `cdChunkOffsets[i]` (R35). -/
def DecoderState.cdOffset (st : DecoderState) (i : Nat) : Nat := st.cdChunkOffsets[i]?.getD 0

/-- `cdTotalSize` (R35). -/
def DecoderState.cdTotalSize (st : DecoderState) : Nat := st.cdOffset st.cdNumChunks

/-- `RB[(pos - d) mod RS]` (R74, R382). -/
def DecoderState.ringBack (st : DecoderState) (d : Nat) : Byte :=
  st.RB.read (((st.pos : Int) - d) % (st.RS : Int)).toNat

/-- `distRing[(distRbIdx + i) & 3]` (R33, R303). -/
def DecoderState.ringSlot (st : DecoderState) (i : Nat) : Nat := st.distRing[st.distRbIdx + Fin.ofNat 4 i]

/-- `PushDistance(d)` (R33, R323). -/
def DecoderState.pushDistance (st : DecoderState) (d : Nat) : DecoderState :=
  { st with
    distRbIdx := st.distRbIdx + 1
    distRing := st.distRing.set (st.distRbIdx + 1 : Fin 4).val d (Fin.isLt _) }

/-! ## The element step as a transaction (R12; assumption log 1) -/

/-- The registers as they stood when the element step in progress began. -/
def State.base (s : State) : DecoderState := s.ckpt.getD s.st

/-- Begin, or go on with, the element step: remember its beginning and consume `n` bits (R152). -/
def State.advance (s : State) (n : Nat) : State :=
  { s with ckpt := some s.base, st := { s.st with bitpos := s.st.bitpos + n } }

/-- Commit the element step where it is complete (R12 (a)). -/
def State.commit (s : State) : State :=
  match s.st.field with
  | .start => { s with ckpt := none }
  | _ => s

/-- `raise K` (R440): the step's own writes are not committed, the state tag becomes the error, and the command in
progress returns `Error(K)`, a `Decompress` with the count of bytes written so far. -/
def State.raise (k : ErrorKind) (s : State) : State :=
  { s with
    st := { s.base with runningState := .error k, field := .start }
    ckpt := none
    inCall := false
    result := if s.inCall then .decompressed s.base.outCount (.error k) else .error k
    report := if s.inCall then some ⟨s.base.outCount, .error k⟩ else s.report }

/-- The `Decompress` in progress returns `(outCount, status)` (R405), which the status values keep (R43). -/
def State.endCall (status : Status) (s : State) : State :=
  { s with
    ckpt := none
    inCall := false
    result := .decompressed s.st.outCount status
    report := some ⟨s.st.outCount, status⟩ }

/-- The step lacks bits and the source has none now: none of its writes are committed and the call returns
`NeedMoreInput` (R12 (c), R156). -/
def State.suspend (s : State) : State :=
  State.endCall .needMoreInput { s with st := { s.base with field := .start } }

/-! ## The stream (R24, R151, R155) -/

/-- The first 64 bits from the cursor on and more, bit 0 the one at the cursor; 0 past the bytes pulled (R7, R80, R151). -/
def streamValue (bs : List Byte) (bitpos : Nat) : Nat :=
  ((bs.drop (bitpos / 8)).take 9).foldr (fun b v => b.toNat + 256 * v) 0 / 2 ^ (bitpos % 8)

/-- Bits supplied and not consumed. -/
def State.bitsHeld (s : State) : Nat := 8 * s.inLen - s.st.bitpos

/-- `max` of the next `SourceRead`: the free space of the 4096-byte input ring, at least 1 (R150, R155; log 4). -/
def State.pullMax (s : State) : Nat := max 1 (Config.inBufBytes - (s.inLen - s.st.bitpos / 8))

/-- `Pull()` (R155). `source` holds the source's answers to come; when it holds none, and for an answer of no byte, the
answer is `NoData`; `EOF` stays; an answer longer than `max` is handed over in parts (assumption log 4). -/
def State.pull (s : State) : State :=
  match s.source with
  | [] => s.suspend
  | .noData :: rest => State.suspend { s with source := rest }
  | .eof :: _ => { s with srcEOF := true }
  | .fail :: rest => State.raise .readFailed { s with srcFail := true, source := rest }
  | .bytes [] :: rest => State.suspend { s with source := rest }
  | .bytes (b :: bs) :: rest =>
    { s with
      IN := s.IN ++ (b :: bs).take s.pullMax
      inLen := s.inLen + ((b :: bs).take s.pullMax).length
      source := if (b :: bs).length ≤ s.pullMax then rest else .bytes ((b :: bs).drop s.pullMax) :: rest }

/-! ## Output (R383, R385) -/

/-- `Emit(b)` (R383). -/
def DecoderState.emit (st : DecoderState) (b : Byte) : DecoderState :=
  { st with RB := st.RB.write (st.pos % st.RS) b, H := st.H ++ [b], pos := st.pos + 1 }

/-- `Emit` of each byte in order. -/
def DecoderState.emitAll (st : DecoderState) (bs : List Byte) : DecoderState := bs.foldl DecoderState.emit st

/-- `fence` (R385). -/
def DecoderState.fence (st : DecoderState) : Nat :=
  let lapEnd := (st.flushed / st.RS + 1) * st.RS
  if st.cfgEager then min lapEnd (st.flushed + st.outCap) else lapEnd

/-- After an emitting step: to WriteOutput at the fence, coming back to `r`; else on in state `r` (R290, R325, R346). -/
def DecoderState.fenceTest (st : DecoderState) (r : RunningState) : DecoderState :=
  if st.pos ≥ st.fence then { st with resumeState := r, runningState := .writeOutput }
  else { st with runningState := r }

/-! ## The header sequencer (R193, R235 to R260) -/

/-- `ReadPrefixCode(alphaMax, alphaLimit)` is next (R193). No rule writes 1 to `pcActive`: that it becomes 1, with `pcPhase`
START and the alphabet loaded, at the end of the step that makes the code next, and stays 1 from one code to the next, is
the model's choice (assumption log 27). -/
def DecoderState.startCode (st : DecoderState) (alphaMax alphaLimit : Nat) : DecoderState :=
  { st with pcActive := true, pcPhase := .start, pcAlphaMax := alphaMax, pcAlphaLimit := alphaLimit }

/-- Begin phase `p`: sub-phase 0, index 0; a tree phase begins its first prefix code (R235, R260). -/
def DecoderState.enterPhase (st : DecoderState) (p : HPhase) : DecoderState :=
  let st := { st with hphase := p, hsub := 0, hidx := 0, pcActive := false }
  match p with
  | .treesL => st.startCode 256 256
  | .treesI => st.startCode 704 704
  | .treesD => st.startCode st.distAlphabetMax st.distAlphabetLimit
  | .partL | .partI | .partD | .distParams | .ctxModes | .cmapL | .cmapD | .finalize => st

/-- A block partition read: its two trees are `blockTypeTree` (sub-phase 1) and `blockLenTree` (sub-phase 2) (R238). -/
def DecoderState.deliverPartition (st : DecoderState) (k : Cat) (T : HuffmanTable) : DecoderState :=
  if st.hsub = 1 then
    { st with blockTypeTree := st.blockTypeTree.set k T, hsub := 2 }.startCode 26 26
  else { st with blockLenTree := st.blockLenTree.set k T, hsub := 3, pcActive := false }

/-- A finished prefix code goes to the phase that asked for it (R235, R238, R253, R260). -/
def DecoderState.deliver (st : DecoderState) (T : HuffmanTable) : DecoderState :=
  match st.hphase with
  | .partL => st.deliverPartition .L T
  | .partI => st.deliverPartition .I T
  | .partD => st.deliverPartition .D T
  | .cmapL | .cmapD => { st with cmTree := T, hsub := 3, pcActive := false }
  | .treesL =>
    let st := { st with literalTrees := st.literalTrees ++ [T], hidx := st.hidx + 1 }
    if st.hidx < st.numLiteralTrees then st.startCode 256 256 else st.enterPhase .treesI
  | .treesI =>
    let st := { st with commandTrees := st.commandTrees ++ [T], hidx := st.hidx + 1 }
    if st.hidx < st.numBlockTypes.I then st.startCode 704 704 else st.enterPhase .treesD
  | .treesD =>
    let st := { st with distanceTrees := st.distanceTrees ++ [T], hidx := st.hidx + 1 }
    if st.hidx < st.numDistTrees then st.startCode st.distAlphabetMax st.distAlphabetLimit
    else st.enterPhase .finalize
  | .distParams | .ctxModes | .finalize => { st with pcActive := false }

/-- The partition phase of category `k` is over (R235, R238). -/
def DecoderState.afterPartition (st : DecoderState) (k : Cat) : DecoderState :=
  match k with
  | .L => st.enterPhase .partI
  | .I => st.enterPhase .partD
  | .D => st.enterPhase .distParams

/-- The category an element belongs to at the control position (R238, R284, R290, R300). -/
def DecoderState.cat (st : DecoderState) : Cat :=
  match st.runningState with
  | .mainLoop => .I
  | .insertLoop => if st.j < st.insertLength then .L else .D
  | _ =>
    match st.hphase with
    | .partL => .L
    | .partI => .I
    | _ => .D

end Sys2Proof.Machine
end

