-- ==== Sys2Proof/Machine/Flags.lean ====
section
/-! DEFINITION. The flags and status views: state tags and error codes (10_state.md rule R20, 60_exceptions.md rule R431),
what the host sees (R43), and the derived flag `trivialLiteralContext` (R47, R266). The engine has no arithmetic condition
codes (R42): its flags are the one-bit registers of `DecoderState`, written by the rules that name them. -/

namespace Sys2Proof

/-- The code of an error kind, 1 to 16 (R431). -/
def ErrorKind.code (k : ErrorKind) : Nat :=
  match k with
  | .corruptWindowBits => 1
  | .corruptMetablockLength => 2
  | .corruptPadding => 3
  | .duplicateSimpleHuffmanSymbol => 4
  | .incompleteHuffmanCode => 5
  | .contextMapOverflow => 6
  | .invalidDistance => 7
  | .copyLengthExceedsBlock => 8
  | .dictionaryAddressOutOfRange => 9
  | .compoundDictionaryOverflow => 10
  | .readFailed => 11
  | .unexpectedEOF => 12
  | .excessiveTrailingInput => 13
  | .alreadyClosed => 14
  | .doubleInitialization => 15
  | .invalidRuntimeStateTransition => 16

end Sys2Proof

namespace Sys2Proof.Machine

/-- The signed tag of a running state (R20). -/
def RunningState.tag (r : RunningState) : Int :=
  match r with
  | .uninitialized => 0
  | .initialized => 1
  | .metablockHeader => 2
  | .metablockHuffmanData => 3
  | .mainLoop => 4
  | .insertLoop => 5
  | .copyLoop => 6
  | .useDictionary => 7
  | .compoundDictionaryCopy => 8
  | .uncompressed => 9
  | .metadata => 10
  | .writeOutput => 11
  | .blockStart => 12
  | .finished => 13
  | .closed => 14
  | .error k => -(k.code : Int)

/-- `hphase` as a number (R37). -/
def HPhase.number (p : HPhase) : Nat :=
  match p with
  | .partL => 0
  | .partI => 1
  | .partD => 2
  | .distParams => 3
  | .ctxModes => 4
  | .cmapL => 5
  | .cmapD => 6
  | .treesL => 7
  | .treesI => 8
  | .treesD => 9
  | .finalize => 10

/-- `ERRKIND` (R43). -/
def State.errKind (s : State) : Int := if s.st.runningState.tag < 0 then s.st.runningState.tag else 0

/-- `BYTES_WRITTEN` of the last `Decompress` (R43); 0 before the first (assumption log 29). -/
def State.bytesWritten (s : State) : Nat :=
  match s.report with
  | some r => r.bytesWritten
  | none => 0

/-- `STATUS` of the last `Decompress` (R43); none before the first (assumption log 29). -/
def State.status (s : State) : Option Status := s.report.map CallReport.status

/-- The states in which the engine is decoding: tags 2 to 13 (R407). -/
def RunningState.decoding (r : RunningState) : Bool := decide (2 ≤ r.tag ∧ r.tag ≤ 13)

/-- `trivialLiteralContext` (R47, R266): every literal context maps to the tree of its block type. -/
def DecoderState.trivialLiteralContext (st : DecoderState) : Bool :=
  (List.range (64 * st.numBlockTypes.L)).all fun i => (st.contextMapL.read i).toNat = i / 64

end Sys2Proof.Machine
end

