-- ==== Sys2Proof/Machine/Operands.lean ====
section
/-! DEFINITION. The operand forms: literal contexts and the tree a symbol is read with (43_sequence.md rules R291 to R293,
R301), distances (R303 to R306), alphabet sizes (42_metablock.md rule R262), the inverse move-to-front transform (R257),
dictionary words and their transforms (44_dictionary.md rules R344, R345, R361, R362), compound-dictionary positions
(R372, R375). -/

namespace Sys2Proof.Machine

/-! ## Contexts and trees -/

/-- `ContextId(mode, p1, p2)` (R293); the mode register has two bits (R29). -/
def contextId (mode p1 p2 : Nat) : Nat :=
  match mode with
  | 0 => p1 % 64
  | 1 => p1 / 4
  | 2 => lut0 p1 ||| lut1 p2
  | _ => lut2 p1 * 8 ||| lut2 p2

/-- The previous byte at backward distance `d`, 0 before the start of the output (R291). -/
def DecoderState.previousByte (st : DecoderState) (d : Nat) : Byte := if st.pos < d then 0 else st.ringBack d

/-- The context of the next literal (R290, R291). -/
def DecoderState.literalContext (st : DecoderState) : Nat :=
  contextId (st.contextModes.read st.blockType.L).toNat (st.previousByte 1).toNat (st.previousByte 2).toNat

/-- The tree index of the next literal (R76, R292). -/
def DecoderState.literalTreeIndex (st : DecoderState) : Nat :=
  (st.contextMapL.read (st.blockType.L * 64 + st.literalContext)).toNat

/-- The tree index of the next distance (R76, R301). -/
def DecoderState.distTreeIndex (st : DecoderState) : Nat :=
  (st.contextMapD.read (st.blockType.D * 4 + st.distContext)).toNat

/-! ## Distances -/

/-- `ShortDistance(sym)` (R303), a signed value. -/
def DecoderState.shortDistance (st : DecoderState) (sym : Nat) : Int :=
  (st.ringSlot (tableAt distShortIdx sym) : Int) + distShortVal.getD sym 0

/-- `LongDistance(sym)` with extra bits `x` (R306). -/
def longDistance (npostfix ndirect sym x : Nat) : Nat :=
  let n := sym - ndirect - 16
  let nbits := 1 + n >>> (npostfix + 1)
  let hcode := n >>> npostfix
  let lcode := n % 2 ^ npostfix
  let offset := (2 + hcode % 2) <<< nbits - 4
  (offset + x) <<< npostfix + lcode + ndirect + 1

/-- `DistAlphabetLimit` (R262); none where it raises. -/
def distAlphabetLimitOf (maxDistance npostfix ndirect : Nat) : Option Nat :=
  if maxDistance < ndirect + 2 <<< npostfix then none
  else
    let offset := (maxDistance - ndirect) >>> npostfix + 4
    let ndistbits := offset.log2 - 1
    let group := (ndistbits - 1) <<< 1 ||| offset >>> ndistbits % 2
    some ((group - 1) <<< npostfix + 1 <<< npostfix + ndirect + 16)

/-- `(distAlphabetMax, distAlphabetLimit)` (R262). -/
def distAlphabets (large : Bool) (npostfix ndirect : Nat) : Option (Nat × Nat) :=
  if large then
    (distAlphabetLimitOf Config.maxAllowedDistance npostfix ndirect).map fun limit =>
      (16 + ndirect + 124 <<< npostfix, limit)
  else some (16 + ndirect + 48 <<< npostfix, 16 + ndirect + 48 <<< npostfix)

/-! ## Context maps -/

/-- `InverseMoveToFront` (R257): `mtf` is the list, its front the latest value. -/
def inverseMoveToFrontFrom (mtf : List Byte) : List Byte → List Byte
  | [] => []
  | idx :: rest =>
    let v := mtf.getD idx.toNat 0
    v :: inverseMoveToFrontFrom (v :: mtf.eraseIdx idx.toNat) rest

def inverseMoveToFront (map : List Byte) : List Byte :=
  inverseMoveToFrontFrom ((List.range 256).map (BitVec.ofNat 8)) map

/-! ## Dictionary references -/

/-- `address` of a dictionary reference (R340), a signed value. -/
def DecoderState.dictAddress (st : DecoderState) : Int :=
  (st.distance : Int) - st.maxDistance - 1 - st.cdTotalSize

/-- The word index and the transform number of a static address for words of length `len` (R344). -/
def wordIndex (len address : Nat) : Nat := address % 2 ^ tableAt ndBits len
def transformIndex (len address : Nat) : Nat := address / 2 ^ tableAt ndBits len

/-- The transform a static reference selects; none where the reference is compound or raises (R340, R344). -/
def DecoderState.staticReference (st : DecoderState) : Option Nat :=
  if st.distance > Config.maxAllowedDistance ∨ st.dictAddress < 0 ∨ st.copyLength < 4 ∨ 24 < st.copyLength then none
  else
    let n := transformIndex st.copyLength st.dictAddress.toNat
    if n < Config.numTransforms then some n else none

/-- Byte `a` of DICT: the one the build supplies, or the opaque constant (R342; assumption log 6). -/
def State.dictByte (s : State) (a : Nat) : Byte :=
  match s.rom.find? fun c => c.1 = a with
  | some c => c.2
  | none => Config.dict a

/-- Word `idx` of length `len` (R77, R345). -/
def State.dictWord (s : State) (len idx : Nat) : List Byte :=
  (List.range len).map fun b => s.dictByte (tableAt dOffset len + idx * len + b)

/-- `UpperStep(body, i)` (R362): the body changed in at most one byte, and the next index. -/
def upperStep (body : List Byte) (i : Nat) : List Byte × Nat :=
  let c := body.getD i 0
  if c < 0xC0 then (if 0x61 ≤ c ∧ c ≤ 0x7A then body.set i (c ^^^ 0x20) else body, i + 1)
  else if c < 0xE0 then (body.modify (i + 1) fun b => b ^^^ 0x20, i + 2)
  else (body.modify (i + 2) fun b => b ^^^ 0x05, i + 3)

/-- `UpperStep` at index `i` and at each next index within the word (R361); `fuel` bounds the number of steps. -/
def upperFrom : Nat → List Byte → Nat → List Byte
  | 0, body, _ => body
  | fuel + 1, body, i =>
    if i < body.length then upperFrom fuel (upperStep body i).1 (upperStep body i).2 else body

/-- What a transform makes of the word (R361). -/
def transformBody (kind : TransformKind) (w : List Byte) : List Byte :=
  match kind with
  | .identity => w
  | .omitFirst k => w.drop k
  | .omitLast k => w.take (w.length - k)
  | .uppercaseFirst => (upperStep w 0).1
  | .uppercaseAll => upperFrom w.length w 0

/-- `Transform(w, n)` (R361). -/
def transformWord (w : List Byte) (n : Nat) : List Byte :=
  (transformRule n).before ++ transformBody (transformRule n).kind w ++ (transformRule n).after

/-- The bytes the static reference at hand produces under transform `n` (R344). -/
def State.staticWord (s : State) (n : Nat) : List Byte :=
  transformWord (s.dictWord s.st.copyLength (wordIndex s.st.copyLength s.st.dictAddress.toNat)) n

/-- The chunk that holds byte `a` of CD (R372). -/
def DecoderState.chunkOf (st : DecoderState) (a : Nat) : Nat :=
  ((List.range Config.cdMaxChunks).find? fun i => st.cdOffset i ≤ a ∧ a < st.cdOffset (i + 1)).getD 0

/-- The address in CD of the next byte of a compound copy (R375). -/
def DecoderState.cdAddress (st : DecoderState) : Nat := st.cdOffset st.cdBrIndex + st.cdBrOffset

/-- The loop of R375 that steps over finished and empty chunks; each turn takes the next chunk, so 16 turns suffice. -/
def DecoderState.skipChunks (st : DecoderState) : Nat → DecoderState
  | 0 => st
  | fuel + 1 =>
    if st.cdBrIndex < st.cdNumChunks ∧ st.cdAddress = st.cdOffset (st.cdBrIndex + 1) then
      { st with cdBrIndex := st.cdBrIndex + 1, cdBrOffset := 0 }.skipChunks fuel
    else st

end Sys2Proof.Machine
end

