-- ==== Sys2Proof/Machine/Dictionary.lean ====
section
/-! DEFINITION. Meanings of dictionary references: the static word under each of the 121 transforms (44_dictionary.md rules
R344 to R347), and the compound reference (R372). -/

namespace Sys2Proof.Machine

/-! ## Shared operations -/

/-- A static-dictionary word under transform `n` (R344, R346, R347). The fence is tested after an empty word as well, as
R346 writes it, although R347 names MainLoop alone and R385 a step that emitted (assumption log 28). -/
def State.emitWord (s : State) (n : Nat) : State :=
  if (s.staticWord n).length > s.st.metaBlockLength then s.raise .copyLengthExceedsBlock
  else
    { s with
      st := ({ s.st.emitAll (s.staticWord n) with
        metaBlockLength := s.st.metaBlockLength - (s.staticWord n).length
        field := .start } : DecoderState).fenceTest .mainLoop }

/-- `CompoundStart(a)` (R372, R373). -/
def State.compoundStart (s : State) (a : Nat) : State :=
  if a + s.st.copyLength > s.st.cdTotalSize then s.raise .compoundDictionaryOverflow
  else if s.st.copyLength > s.st.metaBlockLength then s.raise .copyLengthExceedsBlock
  else
    { s with
      st := { s.st.pushDistance s.st.distance with
        cdBrIndex := s.st.chunkOf a
        cdBrOffset := a - s.st.cdOffset (s.st.chunkOf a)
        cdBrLength := s.st.copyLength
        cdBrCopied := 0
        runningState := .compoundDictionaryCopy } }

/-- The UseDictionary step where it selects no transform row (R340, R341, R344): too far, compound, or out of range. -/
def State.useDictionary (s : State) : State :=
  if s.st.distance > Config.maxAllowedDistance then s.raise .invalidDistance
  else if s.st.dictAddress < 0 then s.compoundStart (-s.st.dictAddress - 1).toNat
  else s.raise .dictionaryAddressOutOfRange

/-! ## The rows -/

/-- `TRANSFORM_0` (R361). -/
def execTransform0 (s : State) : Host.Outcome State Fault Refusal := .next (s.emitWord 0)

/-- `TRANSFORM_1` (R361). -/
def execTransform1 (s : State) : Host.Outcome State Fault Refusal := .next (s.emitWord 1)

/-- `TRANSFORM_2` (R361). -/
def execTransform2 (s : State) : Host.Outcome State Fault Refusal := .next (s.emitWord 2)

/-- `TRANSFORM_3` (R361). -/
def execTransform3 (s : State) : Host.Outcome State Fault Refusal := .next (s.emitWord 3)

/-- `TRANSFORM_4` (R361). -/
def execTransform4 (s : State) : Host.Outcome State Fault Refusal := .next (s.emitWord 4)

/-- `TRANSFORM_5` (R361). -/
def execTransform5 (s : State) : Host.Outcome State Fault Refusal := .next (s.emitWord 5)

/-- `TRANSFORM_6` (R361). -/
def execTransform6 (s : State) : Host.Outcome State Fault Refusal := .next (s.emitWord 6)

/-- `TRANSFORM_7` (R361). -/
def execTransform7 (s : State) : Host.Outcome State Fault Refusal := .next (s.emitWord 7)

/-- `TRANSFORM_8` (R361). -/
def execTransform8 (s : State) : Host.Outcome State Fault Refusal := .next (s.emitWord 8)

/-- `TRANSFORM_9` (R361). -/
def execTransform9 (s : State) : Host.Outcome State Fault Refusal := .next (s.emitWord 9)

/-- `TRANSFORM_10` (R361). -/
def execTransform10 (s : State) : Host.Outcome State Fault Refusal := .next (s.emitWord 10)

/-- `TRANSFORM_11` (R361). -/
def execTransform11 (s : State) : Host.Outcome State Fault Refusal := .next (s.emitWord 11)

/-- `TRANSFORM_12` (R361). -/
def execTransform12 (s : State) : Host.Outcome State Fault Refusal := .next (s.emitWord 12)

/-- `TRANSFORM_13` (R361). -/
def execTransform13 (s : State) : Host.Outcome State Fault Refusal := .next (s.emitWord 13)

/-- `TRANSFORM_14` (R361). -/
def execTransform14 (s : State) : Host.Outcome State Fault Refusal := .next (s.emitWord 14)

/-- `TRANSFORM_15` (R361). -/
def execTransform15 (s : State) : Host.Outcome State Fault Refusal := .next (s.emitWord 15)

/-- `TRANSFORM_16` (R361). -/
def execTransform16 (s : State) : Host.Outcome State Fault Refusal := .next (s.emitWord 16)

/-- `TRANSFORM_17` (R361). -/
def execTransform17 (s : State) : Host.Outcome State Fault Refusal := .next (s.emitWord 17)

/-- `TRANSFORM_18` (R361). -/
def execTransform18 (s : State) : Host.Outcome State Fault Refusal := .next (s.emitWord 18)

/-- `TRANSFORM_19` (R361). -/
def execTransform19 (s : State) : Host.Outcome State Fault Refusal := .next (s.emitWord 19)

/-- `TRANSFORM_20` (R361). -/
def execTransform20 (s : State) : Host.Outcome State Fault Refusal := .next (s.emitWord 20)

/-- `TRANSFORM_21` (R361). -/
def execTransform21 (s : State) : Host.Outcome State Fault Refusal := .next (s.emitWord 21)

/-- `TRANSFORM_22` (R361). -/
def execTransform22 (s : State) : Host.Outcome State Fault Refusal := .next (s.emitWord 22)

/-- `TRANSFORM_23` (R361). -/
def execTransform23 (s : State) : Host.Outcome State Fault Refusal := .next (s.emitWord 23)

/-- `TRANSFORM_24` (R361). -/
def execTransform24 (s : State) : Host.Outcome State Fault Refusal := .next (s.emitWord 24)

/-- `TRANSFORM_25` (R361). -/
def execTransform25 (s : State) : Host.Outcome State Fault Refusal := .next (s.emitWord 25)

/-- `TRANSFORM_26` (R361). -/
def execTransform26 (s : State) : Host.Outcome State Fault Refusal := .next (s.emitWord 26)

/-- `TRANSFORM_27` (R361). -/
def execTransform27 (s : State) : Host.Outcome State Fault Refusal := .next (s.emitWord 27)

/-- `TRANSFORM_28` (R361). -/
def execTransform28 (s : State) : Host.Outcome State Fault Refusal := .next (s.emitWord 28)

/-- `TRANSFORM_29` (R361). -/
def execTransform29 (s : State) : Host.Outcome State Fault Refusal := .next (s.emitWord 29)

/-- `TRANSFORM_30` (R361). -/
def execTransform30 (s : State) : Host.Outcome State Fault Refusal := .next (s.emitWord 30)

/-- `TRANSFORM_31` (R361). -/
def execTransform31 (s : State) : Host.Outcome State Fault Refusal := .next (s.emitWord 31)

/-- `TRANSFORM_32` (R361). -/
def execTransform32 (s : State) : Host.Outcome State Fault Refusal := .next (s.emitWord 32)

/-- `TRANSFORM_33` (R361). -/
def execTransform33 (s : State) : Host.Outcome State Fault Refusal := .next (s.emitWord 33)

/-- `TRANSFORM_34` (R361). -/
def execTransform34 (s : State) : Host.Outcome State Fault Refusal := .next (s.emitWord 34)

/-- `TRANSFORM_35` (R361). -/
def execTransform35 (s : State) : Host.Outcome State Fault Refusal := .next (s.emitWord 35)

/-- `TRANSFORM_36` (R361). -/
def execTransform36 (s : State) : Host.Outcome State Fault Refusal := .next (s.emitWord 36)

/-- `TRANSFORM_37` (R361). -/
def execTransform37 (s : State) : Host.Outcome State Fault Refusal := .next (s.emitWord 37)

/-- `TRANSFORM_38` (R361). -/
def execTransform38 (s : State) : Host.Outcome State Fault Refusal := .next (s.emitWord 38)

/-- `TRANSFORM_39` (R361). -/
def execTransform39 (s : State) : Host.Outcome State Fault Refusal := .next (s.emitWord 39)

/-- `TRANSFORM_40` (R361). -/
def execTransform40 (s : State) : Host.Outcome State Fault Refusal := .next (s.emitWord 40)

/-- `TRANSFORM_41` (R361). -/
def execTransform41 (s : State) : Host.Outcome State Fault Refusal := .next (s.emitWord 41)

/-- `TRANSFORM_42` (R361). -/
def execTransform42 (s : State) : Host.Outcome State Fault Refusal := .next (s.emitWord 42)

/-- `TRANSFORM_43` (R361). -/
def execTransform43 (s : State) : Host.Outcome State Fault Refusal := .next (s.emitWord 43)

/-- `TRANSFORM_44` (R361). -/
def execTransform44 (s : State) : Host.Outcome State Fault Refusal := .next (s.emitWord 44)

/-- `TRANSFORM_45` (R361). -/
def execTransform45 (s : State) : Host.Outcome State Fault Refusal := .next (s.emitWord 45)

/-- `TRANSFORM_46` (R361). -/
def execTransform46 (s : State) : Host.Outcome State Fault Refusal := .next (s.emitWord 46)

/-- `TRANSFORM_47` (R361). -/
def execTransform47 (s : State) : Host.Outcome State Fault Refusal := .next (s.emitWord 47)

/-- `TRANSFORM_48` (R361). -/
def execTransform48 (s : State) : Host.Outcome State Fault Refusal := .next (s.emitWord 48)

/-- `TRANSFORM_49` (R361). -/
def execTransform49 (s : State) : Host.Outcome State Fault Refusal := .next (s.emitWord 49)

/-- `TRANSFORM_50` (R361). -/
def execTransform50 (s : State) : Host.Outcome State Fault Refusal := .next (s.emitWord 50)

/-- `TRANSFORM_51` (R361). -/
def execTransform51 (s : State) : Host.Outcome State Fault Refusal := .next (s.emitWord 51)

/-- `TRANSFORM_52` (R361). -/
def execTransform52 (s : State) : Host.Outcome State Fault Refusal := .next (s.emitWord 52)

/-- `TRANSFORM_53` (R361). -/
def execTransform53 (s : State) : Host.Outcome State Fault Refusal := .next (s.emitWord 53)

/-- `TRANSFORM_54` (R361). -/
def execTransform54 (s : State) : Host.Outcome State Fault Refusal := .next (s.emitWord 54)

/-- `TRANSFORM_55` (R361). -/
def execTransform55 (s : State) : Host.Outcome State Fault Refusal := .next (s.emitWord 55)

/-- `TRANSFORM_56` (R361). -/
def execTransform56 (s : State) : Host.Outcome State Fault Refusal := .next (s.emitWord 56)

/-- `TRANSFORM_57` (R361). -/
def execTransform57 (s : State) : Host.Outcome State Fault Refusal := .next (s.emitWord 57)

/-- `TRANSFORM_58` (R361). -/
def execTransform58 (s : State) : Host.Outcome State Fault Refusal := .next (s.emitWord 58)

/-- `TRANSFORM_59` (R361). -/
def execTransform59 (s : State) : Host.Outcome State Fault Refusal := .next (s.emitWord 59)

/-- `TRANSFORM_60` (R361). -/
def execTransform60 (s : State) : Host.Outcome State Fault Refusal := .next (s.emitWord 60)

/-- `TRANSFORM_61` (R361). -/
def execTransform61 (s : State) : Host.Outcome State Fault Refusal := .next (s.emitWord 61)

/-- `TRANSFORM_62` (R361). -/
def execTransform62 (s : State) : Host.Outcome State Fault Refusal := .next (s.emitWord 62)

/-- `TRANSFORM_63` (R361). -/
def execTransform63 (s : State) : Host.Outcome State Fault Refusal := .next (s.emitWord 63)

/-- `TRANSFORM_64` (R361). -/
def execTransform64 (s : State) : Host.Outcome State Fault Refusal := .next (s.emitWord 64)

/-- `TRANSFORM_65` (R361). -/
def execTransform65 (s : State) : Host.Outcome State Fault Refusal := .next (s.emitWord 65)

/-- `TRANSFORM_66` (R361). -/
def execTransform66 (s : State) : Host.Outcome State Fault Refusal := .next (s.emitWord 66)

/-- `TRANSFORM_67` (R361). -/
def execTransform67 (s : State) : Host.Outcome State Fault Refusal := .next (s.emitWord 67)

/-- `TRANSFORM_68` (R361). -/
def execTransform68 (s : State) : Host.Outcome State Fault Refusal := .next (s.emitWord 68)

/-- `TRANSFORM_69` (R361). -/
def execTransform69 (s : State) : Host.Outcome State Fault Refusal := .next (s.emitWord 69)

/-- `TRANSFORM_70` (R361). -/
def execTransform70 (s : State) : Host.Outcome State Fault Refusal := .next (s.emitWord 70)

/-- `TRANSFORM_71` (R361). -/
def execTransform71 (s : State) : Host.Outcome State Fault Refusal := .next (s.emitWord 71)

/-- `TRANSFORM_72` (R361). -/
def execTransform72 (s : State) : Host.Outcome State Fault Refusal := .next (s.emitWord 72)

/-- `TRANSFORM_73` (R361). -/
def execTransform73 (s : State) : Host.Outcome State Fault Refusal := .next (s.emitWord 73)

/-- `TRANSFORM_74` (R361). -/
def execTransform74 (s : State) : Host.Outcome State Fault Refusal := .next (s.emitWord 74)

/-- `TRANSFORM_75` (R361). -/
def execTransform75 (s : State) : Host.Outcome State Fault Refusal := .next (s.emitWord 75)

/-- `TRANSFORM_76` (R361). -/
def execTransform76 (s : State) : Host.Outcome State Fault Refusal := .next (s.emitWord 76)

/-- `TRANSFORM_77` (R361). -/
def execTransform77 (s : State) : Host.Outcome State Fault Refusal := .next (s.emitWord 77)

/-- `TRANSFORM_78` (R361). -/
def execTransform78 (s : State) : Host.Outcome State Fault Refusal := .next (s.emitWord 78)

/-- `TRANSFORM_79` (R361). -/
def execTransform79 (s : State) : Host.Outcome State Fault Refusal := .next (s.emitWord 79)

/-- `TRANSFORM_80` (R361). -/
def execTransform80 (s : State) : Host.Outcome State Fault Refusal := .next (s.emitWord 80)

/-- `TRANSFORM_81` (R361). -/
def execTransform81 (s : State) : Host.Outcome State Fault Refusal := .next (s.emitWord 81)

/-- `TRANSFORM_82` (R361). -/
def execTransform82 (s : State) : Host.Outcome State Fault Refusal := .next (s.emitWord 82)

/-- `TRANSFORM_83` (R361). -/
def execTransform83 (s : State) : Host.Outcome State Fault Refusal := .next (s.emitWord 83)

/-- `TRANSFORM_84` (R361). -/
def execTransform84 (s : State) : Host.Outcome State Fault Refusal := .next (s.emitWord 84)

/-- `TRANSFORM_85` (R361). -/
def execTransform85 (s : State) : Host.Outcome State Fault Refusal := .next (s.emitWord 85)

/-- `TRANSFORM_86` (R361). -/
def execTransform86 (s : State) : Host.Outcome State Fault Refusal := .next (s.emitWord 86)

/-- `TRANSFORM_87` (R361). -/
def execTransform87 (s : State) : Host.Outcome State Fault Refusal := .next (s.emitWord 87)

/-- `TRANSFORM_88` (R361). -/
def execTransform88 (s : State) : Host.Outcome State Fault Refusal := .next (s.emitWord 88)

/-- `TRANSFORM_89` (R361). -/
def execTransform89 (s : State) : Host.Outcome State Fault Refusal := .next (s.emitWord 89)

/-- `TRANSFORM_90` (R361). -/
def execTransform90 (s : State) : Host.Outcome State Fault Refusal := .next (s.emitWord 90)

/-- `TRANSFORM_91` (R361). -/
def execTransform91 (s : State) : Host.Outcome State Fault Refusal := .next (s.emitWord 91)

/-- `TRANSFORM_92` (R361). -/
def execTransform92 (s : State) : Host.Outcome State Fault Refusal := .next (s.emitWord 92)

/-- `TRANSFORM_93` (R361). -/
def execTransform93 (s : State) : Host.Outcome State Fault Refusal := .next (s.emitWord 93)

/-- `TRANSFORM_94` (R361). -/
def execTransform94 (s : State) : Host.Outcome State Fault Refusal := .next (s.emitWord 94)

/-- `TRANSFORM_95` (R361). -/
def execTransform95 (s : State) : Host.Outcome State Fault Refusal := .next (s.emitWord 95)

/-- `TRANSFORM_96` (R361). -/
def execTransform96 (s : State) : Host.Outcome State Fault Refusal := .next (s.emitWord 96)

/-- `TRANSFORM_97` (R361). -/
def execTransform97 (s : State) : Host.Outcome State Fault Refusal := .next (s.emitWord 97)

/-- `TRANSFORM_98` (R361). -/
def execTransform98 (s : State) : Host.Outcome State Fault Refusal := .next (s.emitWord 98)

/-- `TRANSFORM_99` (R361). -/
def execTransform99 (s : State) : Host.Outcome State Fault Refusal := .next (s.emitWord 99)

/-- `TRANSFORM_100` (R361). -/
def execTransform100 (s : State) : Host.Outcome State Fault Refusal := .next (s.emitWord 100)

/-- `TRANSFORM_101` (R361). -/
def execTransform101 (s : State) : Host.Outcome State Fault Refusal := .next (s.emitWord 101)

/-- `TRANSFORM_102` (R361). -/
def execTransform102 (s : State) : Host.Outcome State Fault Refusal := .next (s.emitWord 102)

/-- `TRANSFORM_103` (R361). -/
def execTransform103 (s : State) : Host.Outcome State Fault Refusal := .next (s.emitWord 103)

/-- `TRANSFORM_104` (R361). -/
def execTransform104 (s : State) : Host.Outcome State Fault Refusal := .next (s.emitWord 104)

/-- `TRANSFORM_105` (R361). -/
def execTransform105 (s : State) : Host.Outcome State Fault Refusal := .next (s.emitWord 105)

/-- `TRANSFORM_106` (R361). -/
def execTransform106 (s : State) : Host.Outcome State Fault Refusal := .next (s.emitWord 106)

/-- `TRANSFORM_107` (R361). -/
def execTransform107 (s : State) : Host.Outcome State Fault Refusal := .next (s.emitWord 107)

/-- `TRANSFORM_108` (R361). -/
def execTransform108 (s : State) : Host.Outcome State Fault Refusal := .next (s.emitWord 108)

/-- `TRANSFORM_109` (R361). -/
def execTransform109 (s : State) : Host.Outcome State Fault Refusal := .next (s.emitWord 109)

/-- `TRANSFORM_110` (R361). -/
def execTransform110 (s : State) : Host.Outcome State Fault Refusal := .next (s.emitWord 110)

/-- `TRANSFORM_111` (R361). -/
def execTransform111 (s : State) : Host.Outcome State Fault Refusal := .next (s.emitWord 111)

/-- `TRANSFORM_112` (R361). -/
def execTransform112 (s : State) : Host.Outcome State Fault Refusal := .next (s.emitWord 112)

/-- `TRANSFORM_113` (R361). -/
def execTransform113 (s : State) : Host.Outcome State Fault Refusal := .next (s.emitWord 113)

/-- `TRANSFORM_114` (R361). -/
def execTransform114 (s : State) : Host.Outcome State Fault Refusal := .next (s.emitWord 114)

/-- `TRANSFORM_115` (R361). -/
def execTransform115 (s : State) : Host.Outcome State Fault Refusal := .next (s.emitWord 115)

/-- `TRANSFORM_116` (R361). -/
def execTransform116 (s : State) : Host.Outcome State Fault Refusal := .next (s.emitWord 116)

/-- `TRANSFORM_117` (R361). -/
def execTransform117 (s : State) : Host.Outcome State Fault Refusal := .next (s.emitWord 117)

/-- `TRANSFORM_118` (R361). -/
def execTransform118 (s : State) : Host.Outcome State Fault Refusal := .next (s.emitWord 118)

/-- `TRANSFORM_119` (R361). -/
def execTransform119 (s : State) : Host.Outcome State Fault Refusal := .next (s.emitWord 119)

/-- `TRANSFORM_120` (R361). -/
def execTransform120 (s : State) : Host.Outcome State Fault Refusal := .next (s.emitWord 120)

end Sys2Proof.Machine
end

