-- ==== Sys2Proof/Machine/Header.lean ====
section
/-! DEFINITION. Meanings of the compressed header's own fields: partitions, distance parameters, context modes and context
maps (42_metablock.md section 5). -/

namespace Sys2Proof.Machine

/-! ## Shared operations -/

/-- `ReadVarLen8` returned `v`; the row that uses it comes next, in the same step (R237; assumption log 2). -/
def State.varlen8 (s : State) (v : Nat) : State := { s with st := { s.st with field := .varlenResult v } }

/-- The count `v` of block types of category `k` (R238). -/
def DecoderState.setBlockTypes (st : DecoderState) (k : Cat) (v : Nat) : DecoderState :=
  let st := { st with
    numBlockTypes := st.numBlockTypes.set k v
    blockType := st.blockType.set k 0
    prevBlockType := st.prevBlockType.set k 1
    field := .start }
  if v = 1 then { st with blockLength := st.blockLength.set k (2 ^ 24) }.afterPartition k
  else { st with hsub := 1 }.startCode (v + 2) (v + 2)

/-- `NBLTYPES` (R238, sub-phase 0). -/
def State.blockTypes (s : State) (v : Nat) : State := { s with st := s.st.setBlockTypes s.st.cat v }

/-- `NPOSTFIX` (R242). -/
def State.postfixBits (s : State) (p : Nat) : State := { s with st := { s.st with npostfix := p, field := .ndirecthi } }

/-- `NDIRECTHI`, and the sizes of the distance alphabet (R242, R262). -/
def State.directCodes (s : State) (d : Nat) : State :=
  match distAlphabets s.st.isLargeWindow s.st.npostfix (d <<< s.st.npostfix) with
  | none => s.raise .invalidDistance
  | some (alphaMax, alphaLimit) =>
    { s with
      st := { s.st with
        ndirect := d <<< s.st.npostfix
        distAlphabetMax := alphaMax
        distAlphabetLimit := alphaLimit
        field := .start }.enterPhase .ctxModes }

/-- `CMODE` of literal block type `hidx` (R244). -/
def State.contextMode (s : State) (mode : Nat) : State :=
  let st := { s.st with
    contextModes := s.st.contextModes.write s.st.hidx (BitVec.ofNat 8 mode)
    hidx := s.st.hidx + 1
    field := .start }
  { s with st := if st.hidx < st.numBlockTypes.L then st else st.enterPhase .cmapL }

/-- The size of the context map of the phase (R250). -/
def DecoderState.mapSize (st : DecoderState) : Nat :=
  match st.hphase with
  | .cmapL => 64 * st.numBlockTypes.L
  | _ => 4 * st.numBlockTypes.D

/-- The context map being read becomes `m` (the `map` of R251 to R257). -/
def DecoderState.setMap (st : DecoderState) (m : Memory) : DecoderState := { st with cmMap := m }

/-- The end of a context map (R258): its number of trees and its entries are stored, and the next phase begins. -/
def DecoderState.endMap (st : DecoderState) : DecoderState :=
  match st.hphase with
  | .cmapL =>
    { st with
      numLiteralTrees := st.cmNumTrees
      contextMapL := st.contextMapL.writeAll 0 (st.cmMap.toBytes st.cmSize) }.enterPhase .cmapD
  | _ =>
    { st with
      numDistTrees := st.cmNumTrees
      contextMapD := st.contextMapD.writeAll 0 (st.cmMap.toBytes st.cmSize) }.enterPhase .treesL

/-- `NTREES` (R251): one tree makes the map all zero and ends it. -/
def DecoderState.setMapTrees (st : DecoderState) (v : Nat) : DecoderState :=
  let st := { st with cmNumTrees := v, cmSize := st.mapSize, cmIdx := 0, field := .start }
  if v = 1 then (st.setMap (st.cmMap.fill 0 st.cmSize 0)).endMap else { st with hsub := 1 }

def State.mapTrees (s : State) (v : Nat) : State := { s with st := s.st.setMapTrees v }

/-- `RLEMAX`, then the map's prefix code (R252, R253). -/
def DecoderState.setRleMax (st : DecoderState) (m : Nat) : DecoderState :=
  { st with cmRleMax := m, hsub := 2, field := .start }.startCode (st.cmNumTrees + m) (st.cmNumTrees + m)

/-- `RLEMAXFLAG` (R252). -/
def State.rleFlag (s : State) (a : Bool) : State :=
  { s with st := if a then { s.st with field := .rlemaxm1 } else s.st.setRleMax 0 }

/-- `RLEMAXM1` (R252). -/
def State.rleMax (s : State) (r : Nat) : State := { s with st := s.st.setRleMax (r + 1) }

/-- `n` map entries are done; a full map goes on to `IMTF` (R254, R257). -/
def DecoderState.mapDone (st : DecoderState) (n : Nat) : DecoderState :=
  let st := { st with cmIdx := st.cmIdx + n, field := .start }
  if st.cmIdx < st.cmSize then st else { st with hsub := 4 }

/-- One map entry of value `v` (R254). -/
def State.mapEntry (s : State) (v : Nat) : State :=
  { s with st := (s.st.setMap (s.st.cmMap.write s.st.cmIdx (BitVec.ofNat 8 v))).mapDone 1 }

/-- A run of `(1 << c) + x` zero entries (R254). -/
def State.mapRun (s : State) (c x : Nat) : State :=
  if s.st.cmIdx + (2 ^ c + x) > s.st.cmSize then s.raise .contextMapOverflow
  else { s with st := (s.st.setMap (s.st.cmMap.fill s.st.cmIdx (2 ^ c + x) 0)).mapDone (2 ^ c + x) }

/-- `IMTF` (R257, R258). -/
def State.mapTransform (s : State) (a : Bool) : State :=
  let st := { s.st with field := .start }
  { s with
    st := if a then (st.setMap (st.cmMap.writeAll 0 (inverseMoveToFront (st.cmMap.toBytes st.cmSize)))).endMap
      else st.endMap }

/-! ## The rows -/

/-- `VARLEN8_1` (R237). -/
def execVarlen8_1 (s : State) : Host.Outcome State Fault Refusal := .next (s.varlen8 1)

/-- `VARLEN8_2` (R237). -/
def execVarlen8_2 (s : State) : Host.Outcome State Fault Refusal := .next (s.varlen8 2)

/-- `VARLEN8_N1` (R237). -/
def execVarlen8_n1 (x : Nat) (s : State) : Host.Outcome State Fault Refusal := .next (s.varlen8 (2 ^ 1 + 1 + x))

/-- `VARLEN8_N2` (R237). -/
def execVarlen8_n2 (x : Nat) (s : State) : Host.Outcome State Fault Refusal := .next (s.varlen8 (2 ^ 2 + 1 + x))

/-- `VARLEN8_N3` (R237). -/
def execVarlen8_n3 (x : Nat) (s : State) : Host.Outcome State Fault Refusal := .next (s.varlen8 (2 ^ 3 + 1 + x))

/-- `VARLEN8_N4` (R237). -/
def execVarlen8_n4 (x : Nat) (s : State) : Host.Outcome State Fault Refusal := .next (s.varlen8 (2 ^ 4 + 1 + x))

/-- `VARLEN8_N5` (R237). -/
def execVarlen8_n5 (x : Nat) (s : State) : Host.Outcome State Fault Refusal := .next (s.varlen8 (2 ^ 5 + 1 + x))

/-- `VARLEN8_N6` (R237). -/
def execVarlen8_n6 (x : Nat) (s : State) : Host.Outcome State Fault Refusal := .next (s.varlen8 (2 ^ 6 + 1 + x))

/-- `VARLEN8_N7` (R237). -/
def execVarlen8_n7 (x : Nat) (s : State) : Host.Outcome State Fault Refusal := .next (s.varlen8 (2 ^ 7 + 1 + x))

/-- `NBLTYPES` (R238). -/
def execNbltypes (v : Nat) (s : State) : Host.Outcome State Fault Refusal := .next (s.blockTypes v)

/-- `NTREES` (R251). -/
def execNtrees (v : Nat) (s : State) : Host.Outcome State Fault Refusal := .next (s.mapTrees v)

/-- `NPOSTFIX` (R242). -/
def execNpostfix (p : Nat) (s : State) : Host.Outcome State Fault Refusal := .next (s.postfixBits p)

/-- `NDIRECTHI` (R242). -/
def execNdirecthi (d : Nat) (s : State) : Host.Outcome State Fault Refusal := .next (s.directCodes d)

/-- `CMODE_LSB6` (R244). -/
def execCmodeLsb6 (s : State) : Host.Outcome State Fault Refusal := .next (s.contextMode 0)

/-- `CMODE_MSB6` (R244). -/
def execCmodeMsb6 (s : State) : Host.Outcome State Fault Refusal := .next (s.contextMode 1)

/-- `CMODE_UTF8` (R244). -/
def execCmodeUtf8 (s : State) : Host.Outcome State Fault Refusal := .next (s.contextMode 2)

/-- `CMODE_Signed` (R244). -/
def execCmodeSigned (s : State) : Host.Outcome State Fault Refusal := .next (s.contextMode 3)

/-- `RLEMAXFLAG` (R252). -/
def execRlemaxflag (a : Bool) (s : State) : Host.Outcome State Fault Refusal := .next (s.rleFlag a)

/-- `RLEMAXM1` (R252). -/
def execRlemaxm1 (r : Nat) (s : State) : Host.Outcome State Fault Refusal := .next (s.rleMax r)

/-- `CMAP_ZERO` (R254). -/
def execCmapZero (s : State) : Host.Outcome State Fault Refusal := .next (s.mapEntry 0)

/-- `CMAP_RUN1` (R254). -/
def execCmapRun1 (x : Nat) (s : State) : Host.Outcome State Fault Refusal := .next (s.mapRun 1 x)

/-- `CMAP_RUN2` (R254). -/
def execCmapRun2 (x : Nat) (s : State) : Host.Outcome State Fault Refusal := .next (s.mapRun 2 x)

/-- `CMAP_RUN3` (R254). -/
def execCmapRun3 (x : Nat) (s : State) : Host.Outcome State Fault Refusal := .next (s.mapRun 3 x)

/-- `CMAP_RUN4` (R254). -/
def execCmapRun4 (x : Nat) (s : State) : Host.Outcome State Fault Refusal := .next (s.mapRun 4 x)

/-- `CMAP_RUN5` (R254). -/
def execCmapRun5 (x : Nat) (s : State) : Host.Outcome State Fault Refusal := .next (s.mapRun 5 x)

/-- `CMAP_RUN6` (R254). -/
def execCmapRun6 (x : Nat) (s : State) : Host.Outcome State Fault Refusal := .next (s.mapRun 6 x)

/-- `CMAP_RUN7` (R254). -/
def execCmapRun7 (x : Nat) (s : State) : Host.Outcome State Fault Refusal := .next (s.mapRun 7 x)

/-- `CMAP_RUN8` (R254). -/
def execCmapRun8 (x : Nat) (s : State) : Host.Outcome State Fault Refusal := .next (s.mapRun 8 x)

/-- `CMAP_RUN9` (R254). -/
def execCmapRun9 (x : Nat) (s : State) : Host.Outcome State Fault Refusal := .next (s.mapRun 9 x)

/-- `CMAP_RUN10` (R254). -/
def execCmapRun10 (x : Nat) (s : State) : Host.Outcome State Fault Refusal := .next (s.mapRun 10 x)

/-- `CMAP_RUN11` (R254). -/
def execCmapRun11 (x : Nat) (s : State) : Host.Outcome State Fault Refusal := .next (s.mapRun 11 x)

/-- `CMAP_RUN12` (R254). -/
def execCmapRun12 (x : Nat) (s : State) : Host.Outcome State Fault Refusal := .next (s.mapRun 12 x)

/-- `CMAP_RUN13` (R254). -/
def execCmapRun13 (x : Nat) (s : State) : Host.Outcome State Fault Refusal := .next (s.mapRun 13 x)

/-- `CMAP_RUN14` (R254). -/
def execCmapRun14 (x : Nat) (s : State) : Host.Outcome State Fault Refusal := .next (s.mapRun 14 x)

/-- `CMAP_RUN15` (R254). -/
def execCmapRun15 (x : Nat) (s : State) : Host.Outcome State Fault Refusal := .next (s.mapRun 15 x)

/-- `CMAP_RUN16` (R254). -/
def execCmapRun16 (x : Nat) (s : State) : Host.Outcome State Fault Refusal := .next (s.mapRun 16 x)

/-- `CMAP_VALUE` (R254). -/
def execCmapValue (c : Nat) (s : State) : Host.Outcome State Fault Refusal := .next (s.mapEntry (c - s.st.cmRleMax))

/-- `IMTF` (R257). -/
def execImtf (a : Bool) (s : State) : Host.Outcome State Fault Refusal := .next (s.mapTransform a)

end Sys2Proof.Machine
end

