-- ==== Sys2Proof/Machine/PrefixCode.lean ====
section
/-! DEFINITION. Meanings of the elements of a prefix-code description: the simple form, the code-length code and the
code-length symbols (41_huffman.md rules R193 to R200). -/

namespace Sys2Proof.Machine

/-! ## Shared operations -/

/-- The simple form is read: range before duplicates, then the code of R194. -/
def simpleLengths (symbols : List Nat) (treeSelect : Bool) (alphaLimit : Nat) : List Nat :=
  let lens :=
    match symbols.length with
    | 1 => [1]
    | 2 => [1, 1]
    | 3 => [1, 2, 2]
    | _ => if treeSelect then [1, 2, 3, 3] else [2, 2, 2, 2]
  (symbols.zip lens).foldl (fun L p => L.set p.1 p.2) (List.replicate alphaLimit 0)

/-- Two equal symbols among those listed. -/
def hasDuplicate : List Nat → Bool
  | [] => false
  | x :: xs => xs.contains x || hasDuplicate xs

/-- The end of the simple form (R194). -/
def State.endSimple (s : State) (symbols : List Nat) (treeSelect : Bool) : State :=
  if symbols.any fun x => x ≥ s.st.pcAlphaLimit then s.raise .incompleteHuffmanCode
  else if hasDuplicate symbols then s.raise .duplicateSimpleHuffmanSymbol
  else
    { s with
      st := { s.st with field := .start }.deliver
        (.build (simpleLengths symbols treeSelect s.st.pcAlphaLimit) Config.huffRootBits) }

/-- `HSKIP` of `n` (R193). -/
def State.codeStart (s : State) (n : Nat) : State :=
  { s with
    st := if n = 1 then { s.st with pcHskip := n, field := .nsymm1 }
      else { s.st with
        pcHskip := n
        clLengths := []
        clSpace := 32
        clNum := 0
        clIdx := n
        pcPhase := .clLengths
        field := .start } }

/-- `NSYMM1` of `n` (R194). -/
def State.simpleCount (s : State) (n : Nat) : State := { s with st := { s.st with field := .symbol (n + 1) [] } }

/-- How many `SYMBOL` fields the simple form at hand has, and those read (R194). -/
def Field.symbols (f : Field) : Nat × List Nat :=
  match f with
  | .symbol nsym read => (nsym, read)
  | .treeSelect read => (4, read)
  | _ => (1, [])

/-- `SYMBOL` (R194): the next symbol, `TREESELECT` after four, or the end of the form. -/
def State.simpleSymbol (s : State) (x : Nat) : State :=
  let nsym := s.st.field.symbols.1
  let read := s.st.field.symbols.2 ++ [x]
  if read.length < nsym then { s with st := { s.st with field := .symbol nsym read } }
  else if nsym = 4 then { s with st := { s.st with field := .treeSelect read } }
  else s.endSimple read false

/-- `TREESELECT` (R194). -/
def State.simpleTree (s : State) (a : Bool) : State := s.endSimple s.st.field.symbols.2 a

/-- The code-length code, built again from its lengths wherever it is read (R196; assumption log 15). -/
def DecoderState.clTree (st : DecoderState) : HuffmanTable :=
  .build ((st.clLengths.toBytes 18).map BitVec.toNat) Config.clRootBits

/-- One code-length-code length `v` (R196). -/
def State.codeLengthLength (s : State) (v : Nat) : State :=
  let st := { s.st with
    clLengths := s.st.clLengths.write (tableAt clOrder s.st.clIdx) (BitVec.ofNat 8 v)
    clIdx := s.st.clIdx + 1
    clSpace := if v = 0 then s.st.clSpace else s.st.clSpace - (32 / 2 ^ v : Nat)
    clNum := if v = 0 then s.st.clNum else s.st.clNum + 1
    field := .start }
  if st.clSpace ≤ 0 ∨ st.clIdx = 18 then
    if st.clSpace ≠ 0 ∧ st.clNum ≠ 1 then s.raise .incompleteHuffmanCode
    else
      { s with
        st := { st with
          codeLengths := []
          symIdx := 0
          prevCodeLen := 8
          repeatCount := 0
          repeatCodeLen := 0
          space := 32768
          pcPhase := .symLengths } }
  else { s with st := st }

/-- After a code-length symbol: the next one while the loop condition of R198 holds, else the end of the code (R200). -/
def State.symbolLengthDone (s : State) (st : DecoderState) : State :=
  if st.symIdx < st.pcAlphaLimit ∧ st.space > 0 then { s with st := st }
  else if st.space ≠ 0 then s.raise .incompleteHuffmanCode
  else
    { s with
      st := st.deliver
        (.build ((st.codeLengths.toBytes st.pcAlphaLimit).map BitVec.toNat) Config.huffRootBits) }

/-- A code-length symbol below 16 (R198). -/
def State.symbolLength (s : State) (c : Nat) : State :=
  s.symbolLengthDone
    { s.st with
      repeatCount := 0
      codeLengths := s.st.codeLengths.write s.st.symIdx (BitVec.ofNat 8 c)
      symIdx := s.st.symIdx + 1
      prevCodeLen := if c = 0 then s.st.prevCodeLen else c
      space := if c = 0 then s.st.space else s.st.space - (32768 / 2 ^ c : Nat)
      field := .start }

/-- `RepeatStep` (R199): `newLen` repeated, with `xb` extra bits of value `x`. -/
def State.repeatLength (s : State) (newLen xb x : Nat) : State :=
  let old := if s.st.repeatCodeLen = newLen then s.st.repeatCount else 0
  let total := (if old > 0 then (old - 2) <<< xb else 0) + x + 3
  let delta := total - old
  if s.st.symIdx + delta > s.st.pcAlphaLimit then s.raise .incompleteHuffmanCode
  else
    s.symbolLengthDone
      { s.st with
        repeatCount := total
        repeatCodeLen := newLen
        codeLengths := s.st.codeLengths.fill s.st.symIdx delta (BitVec.ofNat 8 newLen)
        symIdx := s.st.symIdx + delta
        space := if newLen = 0 then s.st.space else s.st.space - (delta <<< (15 - newLen) : Nat)
        field := .start }

/-! ## The rows -/

/-- `HSKIP_0` (R193). -/
def execHskip_0 (s : State) : Host.Outcome State Fault Refusal := .next (s.codeStart 0)

/-- `HSKIP_1` (R193). -/
def execHskip_1 (s : State) : Host.Outcome State Fault Refusal := .next (s.codeStart 1)

/-- `HSKIP_2` (R193). -/
def execHskip_2 (s : State) : Host.Outcome State Fault Refusal := .next (s.codeStart 2)

/-- `HSKIP_3` (R193). -/
def execHskip_3 (s : State) : Host.Outcome State Fault Refusal := .next (s.codeStart 3)

/-- `NSYMM1_0` (R194). -/
def execNsymm1_0 (s : State) : Host.Outcome State Fault Refusal := .next (s.simpleCount 0)

/-- `NSYMM1_1` (R194). -/
def execNsymm1_1 (s : State) : Host.Outcome State Fault Refusal := .next (s.simpleCount 1)

/-- `NSYMM1_2` (R194). -/
def execNsymm1_2 (s : State) : Host.Outcome State Fault Refusal := .next (s.simpleCount 2)

/-- `NSYMM1_3` (R194). -/
def execNsymm1_3 (s : State) : Host.Outcome State Fault Refusal := .next (s.simpleCount 3)

/-- `SYMBOL` (R194). -/
def execSymbol (v : Nat) (s : State) : Host.Outcome State Fault Refusal := .next (s.simpleSymbol v)

/-- `TREESELECT` (R194). -/
def execTreeselect (a : Bool) (s : State) : Host.Outcome State Fault Refusal := .next (s.simpleTree a)

/-- `CLLEN_0` (R196). -/
def execCllen_0 (s : State) : Host.Outcome State Fault Refusal := .next (s.codeLengthLength 0)

/-- `CLLEN_1` (R196). -/
def execCllen_1 (s : State) : Host.Outcome State Fault Refusal := .next (s.codeLengthLength 1)

/-- `CLLEN_2` (R196). -/
def execCllen_2 (s : State) : Host.Outcome State Fault Refusal := .next (s.codeLengthLength 2)

/-- `CLLEN_3` (R196). -/
def execCllen_3 (s : State) : Host.Outcome State Fault Refusal := .next (s.codeLengthLength 3)

/-- `CLLEN_4` (R196). -/
def execCllen_4 (s : State) : Host.Outcome State Fault Refusal := .next (s.codeLengthLength 4)

/-- `CLLEN_5` (R196). -/
def execCllen_5 (s : State) : Host.Outcome State Fault Refusal := .next (s.codeLengthLength 5)

/-- `CLSYM_0` (R198). -/
def execClsym_0 (s : State) : Host.Outcome State Fault Refusal := .next (s.symbolLength 0)

/-- `CLSYM_1` (R198). -/
def execClsym_1 (s : State) : Host.Outcome State Fault Refusal := .next (s.symbolLength 1)

/-- `CLSYM_2` (R198). -/
def execClsym_2 (s : State) : Host.Outcome State Fault Refusal := .next (s.symbolLength 2)

/-- `CLSYM_3` (R198). -/
def execClsym_3 (s : State) : Host.Outcome State Fault Refusal := .next (s.symbolLength 3)

/-- `CLSYM_4` (R198). -/
def execClsym_4 (s : State) : Host.Outcome State Fault Refusal := .next (s.symbolLength 4)

/-- `CLSYM_5` (R198). -/
def execClsym_5 (s : State) : Host.Outcome State Fault Refusal := .next (s.symbolLength 5)

/-- `CLSYM_6` (R198). -/
def execClsym_6 (s : State) : Host.Outcome State Fault Refusal := .next (s.symbolLength 6)

/-- `CLSYM_7` (R198). -/
def execClsym_7 (s : State) : Host.Outcome State Fault Refusal := .next (s.symbolLength 7)

/-- `CLSYM_8` (R198). -/
def execClsym_8 (s : State) : Host.Outcome State Fault Refusal := .next (s.symbolLength 8)

/-- `CLSYM_9` (R198). -/
def execClsym_9 (s : State) : Host.Outcome State Fault Refusal := .next (s.symbolLength 9)

/-- `CLSYM_10` (R198). -/
def execClsym_10 (s : State) : Host.Outcome State Fault Refusal := .next (s.symbolLength 10)

/-- `CLSYM_11` (R198). -/
def execClsym_11 (s : State) : Host.Outcome State Fault Refusal := .next (s.symbolLength 11)

/-- `CLSYM_12` (R198). -/
def execClsym_12 (s : State) : Host.Outcome State Fault Refusal := .next (s.symbolLength 12)

/-- `CLSYM_13` (R198). -/
def execClsym_13 (s : State) : Host.Outcome State Fault Refusal := .next (s.symbolLength 13)

/-- `CLSYM_14` (R198). -/
def execClsym_14 (s : State) : Host.Outcome State Fault Refusal := .next (s.symbolLength 14)

/-- `CLSYM_15` (R198). -/
def execClsym_15 (s : State) : Host.Outcome State Fault Refusal := .next (s.symbolLength 15)

/-- `CLSYM_16` (R199). -/
def execClsym_16 (x : Nat) (s : State) : Host.Outcome State Fault Refusal := .next (s.repeatLength s.st.prevCodeLen 2 x)

/-- `CLSYM_17` (R199). -/
def execClsym_17 (x : Nat) (s : State) : Host.Outcome State Fault Refusal := .next (s.repeatLength 0 3 x)

end Sys2Proof.Machine
end

