-- ==== Sys2Proof/Machine/Sequence.lean ====
section
/-! DEFINITION. Meanings of the commands' elements: block switches, command symbols, insert and copy lengths, literals and
distances (43_sequence.md; 42_metablock.md rules R238, R239 for a partition's first count). -/

namespace Sys2Proof.Machine

/-! ## Shared operations -/

/-- The type symbol of a block switch; the count comes next, in the same step (R295). -/
def State.switchType (s : State) (t : Nat) : State := { s with st := { s.st with field := .blockCount t } }

/-- The new block type of a switch with type symbol `t` (R295). -/
def DecoderState.newBlockType (st : DecoderState) (k : Cat) (t : Nat) : Nat :=
  let new :=
    match t with
    | 0 => st.prevBlockType.get k
    | 1 => st.blockType.get k + 1
    | _ => t - 2
  if new ≥ st.numBlockTypes.get k then new - st.numBlockTypes.get k else new

/-- A switch of category `k` by type symbol `t` and count `n` (R295). -/
def DecoderState.switchBlock (st : DecoderState) (k : Cat) (t n : Nat) : DecoderState :=
  { st with
    prevBlockType := st.prevBlockType.set k (st.blockType.get k)
    blockType := st.blockType.set k (st.newBlockType k t)
    blockLength := st.blockLength.set k n
    field := .start }

/-- A block count `n` (R239): of a switch (R295), or the first of a partition (R238, sub-phase 3). -/
def State.blockCount (s : State) (n : Nat) : State :=
  { s with
    st :=
      match s.st.field with
      | .blockCount t => s.st.switchBlock s.st.cat t n
      | _ => { s.st with blockLength := s.st.blockLength.set s.st.cat n, field := .start }.afterPartition s.st.cat }

/-- `ReadBlockLength` returned code `c` and extra bits `x` (R239, R240). -/
def State.blockCountCode (s : State) (c x : Nat) : State := s.blockCount (tableAt blenBase c + x)

/-- A command symbol (R280, R284). -/
def State.command (s : State) (c : Nat) : State :=
  { s with
    st := { s.st with
      blockLength := s.st.blockLength.set .I (s.st.blockLength.I - 1)
      cmdCode := c
      distImplicit := implicitDistance c
      field := .insLen } }

/-- The insert length of code `c` (R281, R284). -/
def State.insertLengthCode (s : State) (c x : Nat) : State :=
  { s with st := { s.st with insertLength := tableAt insBase c + x, field := .copyLen } }

/-- The copy length of code `c`, and the end of the command step (R282, R284, R286, R299). -/
def State.copyLengthCode (s : State) (c x : Nat) : State :=
  if s.st.insertLength > s.st.metaBlockLength then s.raise .corruptMetablockLength
  else
    { s with
      st := { s.st with
        copyLength := tableAt copyBase c + x
        distContext := distContextOf (tableAt copyBase c + x)
        j := 0
        runningState := .insertLoop
        field := .start } }

/-- A literal (R290). -/
def State.literal (s : State) (b : Byte) : State :=
  { s with
    st := ({ s.st.emit b with
      blockLength := s.st.blockLength.set .L (s.st.blockLength.L - 1)
      j := s.st.j + 1
      metaBlockLength := s.st.metaBlockLength - 1
      field := .start } : DecoderState).fenceTest .insertLoop }

/-- `Resolve()` (R320 to R324): `st` holds the registers with `distance` set; an error takes back the whole step. -/
def State.resolve (s : State) (st : DecoderState) : State :=
  let st := { st with maxDistance := min st.pos st.maxBackwardDistance, field := .start }
  if st.distance > st.maxDistance then { s with st := { st with runningState := .useDictionary } }
  else
    let st := if st.distImplicit = false ∧ st.distSymbol ≠ 0 then st.pushDistance st.distance else st
    if st.copyLength > st.metaBlockLength then s.raise .copyLengthExceedsBlock
    else { s with st := { st with j := 0, runningState := .copyLoop } }

/-- The implicit distance: the last one of the ring (R300, R301). -/
def State.lastDistance (s : State) : State := s.resolve { s.st with distance := s.st.ringSlot 0 }

/-- An explicit distance `d` read with symbol `sym` (R300): not positive, or on to `Resolve()`. -/
def State.explicitDistance (s : State) (sym : Nat) (d : Int) : State :=
  if d ≤ 0 then s.raise .invalidDistance
  else
    s.resolve
      { s.st with
        blockLength := s.st.blockLength.set .D (s.st.blockLength.D - 1)
        distSymbol := sym
        distance := d.toNat }

/-- Short code `sym` (R303). -/
def State.shortCode (s : State) (sym : Nat) : State := s.explicitDistance sym (s.st.shortDistance sym)

/-- Direct code (R305). -/
def State.directCode (s : State) (sym : Nat) : State := s.explicitDistance sym ((sym : Int) - 15)

/-- Long code with extra bits `x` (R306). -/
def State.longCode (s : State) (sym x : Nat) : State :=
  s.explicitDistance sym (longDistance s.st.npostfix s.st.ndirect sym x : Nat)

/-! ## The rows -/

/-- `BTYPE_PREV` (R295). -/
def execBtypePrev (s : State) : Host.Outcome State Fault Refusal := .next (s.switchType 0)

/-- `BTYPE_NEXT` (R295). -/
def execBtypeNext (s : State) : Host.Outcome State Fault Refusal := .next (s.switchType 1)

/-- `BTYPE_ABS` (R295). -/
def execBtypeAbs (t : Nat) (s : State) : Host.Outcome State Fault Refusal := .next (s.switchType t)

/-- `BLEN_0` (R239). -/
def execBlen_0 (x : Nat) (s : State) : Host.Outcome State Fault Refusal := .next (s.blockCountCode 0 x)

/-- `BLEN_1` (R239). -/
def execBlen_1 (x : Nat) (s : State) : Host.Outcome State Fault Refusal := .next (s.blockCountCode 1 x)

/-- `BLEN_2` (R239). -/
def execBlen_2 (x : Nat) (s : State) : Host.Outcome State Fault Refusal := .next (s.blockCountCode 2 x)

/-- `BLEN_3` (R239). -/
def execBlen_3 (x : Nat) (s : State) : Host.Outcome State Fault Refusal := .next (s.blockCountCode 3 x)

/-- `BLEN_4` (R239). -/
def execBlen_4 (x : Nat) (s : State) : Host.Outcome State Fault Refusal := .next (s.blockCountCode 4 x)

/-- `BLEN_5` (R239). -/
def execBlen_5 (x : Nat) (s : State) : Host.Outcome State Fault Refusal := .next (s.blockCountCode 5 x)

/-- `BLEN_6` (R239). -/
def execBlen_6 (x : Nat) (s : State) : Host.Outcome State Fault Refusal := .next (s.blockCountCode 6 x)

/-- `BLEN_7` (R239). -/
def execBlen_7 (x : Nat) (s : State) : Host.Outcome State Fault Refusal := .next (s.blockCountCode 7 x)

/-- `BLEN_8` (R239). -/
def execBlen_8 (x : Nat) (s : State) : Host.Outcome State Fault Refusal := .next (s.blockCountCode 8 x)

/-- `BLEN_9` (R239). -/
def execBlen_9 (x : Nat) (s : State) : Host.Outcome State Fault Refusal := .next (s.blockCountCode 9 x)

/-- `BLEN_10` (R239). -/
def execBlen_10 (x : Nat) (s : State) : Host.Outcome State Fault Refusal := .next (s.blockCountCode 10 x)

/-- `BLEN_11` (R239). -/
def execBlen_11 (x : Nat) (s : State) : Host.Outcome State Fault Refusal := .next (s.blockCountCode 11 x)

/-- `BLEN_12` (R239). -/
def execBlen_12 (x : Nat) (s : State) : Host.Outcome State Fault Refusal := .next (s.blockCountCode 12 x)

/-- `BLEN_13` (R239). -/
def execBlen_13 (x : Nat) (s : State) : Host.Outcome State Fault Refusal := .next (s.blockCountCode 13 x)

/-- `BLEN_14` (R239). -/
def execBlen_14 (x : Nat) (s : State) : Host.Outcome State Fault Refusal := .next (s.blockCountCode 14 x)

/-- `BLEN_15` (R239). -/
def execBlen_15 (x : Nat) (s : State) : Host.Outcome State Fault Refusal := .next (s.blockCountCode 15 x)

/-- `BLEN_16` (R239). -/
def execBlen_16 (x : Nat) (s : State) : Host.Outcome State Fault Refusal := .next (s.blockCountCode 16 x)

/-- `BLEN_17` (R239). -/
def execBlen_17 (x : Nat) (s : State) : Host.Outcome State Fault Refusal := .next (s.blockCountCode 17 x)

/-- `BLEN_18` (R239). -/
def execBlen_18 (x : Nat) (s : State) : Host.Outcome State Fault Refusal := .next (s.blockCountCode 18 x)

/-- `BLEN_19` (R239). -/
def execBlen_19 (x : Nat) (s : State) : Host.Outcome State Fault Refusal := .next (s.blockCountCode 19 x)

/-- `BLEN_20` (R239). -/
def execBlen_20 (x : Nat) (s : State) : Host.Outcome State Fault Refusal := .next (s.blockCountCode 20 x)

/-- `BLEN_21` (R239). -/
def execBlen_21 (x : Nat) (s : State) : Host.Outcome State Fault Refusal := .next (s.blockCountCode 21 x)

/-- `BLEN_22` (R239). -/
def execBlen_22 (x : Nat) (s : State) : Host.Outcome State Fault Refusal := .next (s.blockCountCode 22 x)

/-- `BLEN_23` (R239). -/
def execBlen_23 (x : Nat) (s : State) : Host.Outcome State Fault Refusal := .next (s.blockCountCode 23 x)

/-- `BLEN_24` (R239). -/
def execBlen_24 (x : Nat) (s : State) : Host.Outcome State Fault Refusal := .next (s.blockCountCode 24 x)

/-- `BLEN_25` (R239). -/
def execBlen_25 (x : Nat) (s : State) : Host.Outcome State Fault Refusal := .next (s.blockCountCode 25 x)

/-- `CMD_CELL0` (R284). -/
def execCmdCell0 (sym : Nat) (s : State) : Host.Outcome State Fault Refusal := .next (s.command sym)

/-- `CMD_CELL1` (R284). -/
def execCmdCell1 (sym : Nat) (s : State) : Host.Outcome State Fault Refusal := .next (s.command sym)

/-- `CMD_CELL2` (R284). -/
def execCmdCell2 (sym : Nat) (s : State) : Host.Outcome State Fault Refusal := .next (s.command sym)

/-- `CMD_CELL3` (R284). -/
def execCmdCell3 (sym : Nat) (s : State) : Host.Outcome State Fault Refusal := .next (s.command sym)

/-- `CMD_CELL4` (R284). -/
def execCmdCell4 (sym : Nat) (s : State) : Host.Outcome State Fault Refusal := .next (s.command sym)

/-- `CMD_CELL5` (R284). -/
def execCmdCell5 (sym : Nat) (s : State) : Host.Outcome State Fault Refusal := .next (s.command sym)

/-- `CMD_CELL6` (R284). -/
def execCmdCell6 (sym : Nat) (s : State) : Host.Outcome State Fault Refusal := .next (s.command sym)

/-- `CMD_CELL7` (R284). -/
def execCmdCell7 (sym : Nat) (s : State) : Host.Outcome State Fault Refusal := .next (s.command sym)

/-- `CMD_CELL8` (R284). -/
def execCmdCell8 (sym : Nat) (s : State) : Host.Outcome State Fault Refusal := .next (s.command sym)

/-- `CMD_CELL9` (R284). -/
def execCmdCell9 (sym : Nat) (s : State) : Host.Outcome State Fault Refusal := .next (s.command sym)

/-- `CMD_CELL10` (R284). -/
def execCmdCell10 (sym : Nat) (s : State) : Host.Outcome State Fault Refusal := .next (s.command sym)

/-- `INSLEN_0` (R281). -/
def execInslen0 (i : Nat) (s : State) : Host.Outcome State Fault Refusal := .next (s.insertLengthCode 0 i)

/-- `INSLEN_1` (R281). -/
def execInslen1 (i : Nat) (s : State) : Host.Outcome State Fault Refusal := .next (s.insertLengthCode 1 i)

/-- `INSLEN_2` (R281). -/
def execInslen2 (i : Nat) (s : State) : Host.Outcome State Fault Refusal := .next (s.insertLengthCode 2 i)

/-- `INSLEN_3` (R281). -/
def execInslen3 (i : Nat) (s : State) : Host.Outcome State Fault Refusal := .next (s.insertLengthCode 3 i)

/-- `INSLEN_4` (R281). -/
def execInslen4 (i : Nat) (s : State) : Host.Outcome State Fault Refusal := .next (s.insertLengthCode 4 i)

/-- `INSLEN_5` (R281). -/
def execInslen5 (i : Nat) (s : State) : Host.Outcome State Fault Refusal := .next (s.insertLengthCode 5 i)

/-- `INSLEN_6` (R281). -/
def execInslen6 (i : Nat) (s : State) : Host.Outcome State Fault Refusal := .next (s.insertLengthCode 6 i)

/-- `INSLEN_7` (R281). -/
def execInslen7 (i : Nat) (s : State) : Host.Outcome State Fault Refusal := .next (s.insertLengthCode 7 i)

/-- `INSLEN_8` (R281). -/
def execInslen8 (i : Nat) (s : State) : Host.Outcome State Fault Refusal := .next (s.insertLengthCode 8 i)

/-- `INSLEN_9` (R281). -/
def execInslen9 (i : Nat) (s : State) : Host.Outcome State Fault Refusal := .next (s.insertLengthCode 9 i)

/-- `INSLEN_10` (R281). -/
def execInslen10 (i : Nat) (s : State) : Host.Outcome State Fault Refusal := .next (s.insertLengthCode 10 i)

/-- `INSLEN_11` (R281). -/
def execInslen11 (i : Nat) (s : State) : Host.Outcome State Fault Refusal := .next (s.insertLengthCode 11 i)

/-- `INSLEN_12` (R281). -/
def execInslen12 (i : Nat) (s : State) : Host.Outcome State Fault Refusal := .next (s.insertLengthCode 12 i)

/-- `INSLEN_13` (R281). -/
def execInslen13 (i : Nat) (s : State) : Host.Outcome State Fault Refusal := .next (s.insertLengthCode 13 i)

/-- `INSLEN_14` (R281). -/
def execInslen14 (i : Nat) (s : State) : Host.Outcome State Fault Refusal := .next (s.insertLengthCode 14 i)

/-- `INSLEN_15` (R281). -/
def execInslen15 (i : Nat) (s : State) : Host.Outcome State Fault Refusal := .next (s.insertLengthCode 15 i)

/-- `INSLEN_16` (R281). -/
def execInslen16 (i : Nat) (s : State) : Host.Outcome State Fault Refusal := .next (s.insertLengthCode 16 i)

/-- `INSLEN_17` (R281). -/
def execInslen17 (i : Nat) (s : State) : Host.Outcome State Fault Refusal := .next (s.insertLengthCode 17 i)

/-- `INSLEN_18` (R281). -/
def execInslen18 (i : Nat) (s : State) : Host.Outcome State Fault Refusal := .next (s.insertLengthCode 18 i)

/-- `INSLEN_19` (R281). -/
def execInslen19 (i : Nat) (s : State) : Host.Outcome State Fault Refusal := .next (s.insertLengthCode 19 i)

/-- `INSLEN_20` (R281). -/
def execInslen20 (i : Nat) (s : State) : Host.Outcome State Fault Refusal := .next (s.insertLengthCode 20 i)

/-- `INSLEN_21` (R281). -/
def execInslen21 (i : Nat) (s : State) : Host.Outcome State Fault Refusal := .next (s.insertLengthCode 21 i)

/-- `INSLEN_22` (R281). -/
def execInslen22 (i : Nat) (s : State) : Host.Outcome State Fault Refusal := .next (s.insertLengthCode 22 i)

/-- `INSLEN_23` (R281). -/
def execInslen23 (i : Nat) (s : State) : Host.Outcome State Fault Refusal := .next (s.insertLengthCode 23 i)

/-- `COPYLEN_0` (R282). -/
def execCopylen0 (c : Nat) (s : State) : Host.Outcome State Fault Refusal := .next (s.copyLengthCode 0 c)

/-- `COPYLEN_1` (R282). -/
def execCopylen1 (c : Nat) (s : State) : Host.Outcome State Fault Refusal := .next (s.copyLengthCode 1 c)

/-- `COPYLEN_2` (R282). -/
def execCopylen2 (c : Nat) (s : State) : Host.Outcome State Fault Refusal := .next (s.copyLengthCode 2 c)

/-- `COPYLEN_3` (R282). -/
def execCopylen3 (c : Nat) (s : State) : Host.Outcome State Fault Refusal := .next (s.copyLengthCode 3 c)

/-- `COPYLEN_4` (R282). -/
def execCopylen4 (c : Nat) (s : State) : Host.Outcome State Fault Refusal := .next (s.copyLengthCode 4 c)

/-- `COPYLEN_5` (R282). -/
def execCopylen5 (c : Nat) (s : State) : Host.Outcome State Fault Refusal := .next (s.copyLengthCode 5 c)

/-- `COPYLEN_6` (R282). -/
def execCopylen6 (c : Nat) (s : State) : Host.Outcome State Fault Refusal := .next (s.copyLengthCode 6 c)

/-- `COPYLEN_7` (R282). -/
def execCopylen7 (c : Nat) (s : State) : Host.Outcome State Fault Refusal := .next (s.copyLengthCode 7 c)

/-- `COPYLEN_8` (R282). -/
def execCopylen8 (c : Nat) (s : State) : Host.Outcome State Fault Refusal := .next (s.copyLengthCode 8 c)

/-- `COPYLEN_9` (R282). -/
def execCopylen9 (c : Nat) (s : State) : Host.Outcome State Fault Refusal := .next (s.copyLengthCode 9 c)

/-- `COPYLEN_10` (R282). -/
def execCopylen10 (c : Nat) (s : State) : Host.Outcome State Fault Refusal := .next (s.copyLengthCode 10 c)

/-- `COPYLEN_11` (R282). -/
def execCopylen11 (c : Nat) (s : State) : Host.Outcome State Fault Refusal := .next (s.copyLengthCode 11 c)

/-- `COPYLEN_12` (R282). -/
def execCopylen12 (c : Nat) (s : State) : Host.Outcome State Fault Refusal := .next (s.copyLengthCode 12 c)

/-- `COPYLEN_13` (R282). -/
def execCopylen13 (c : Nat) (s : State) : Host.Outcome State Fault Refusal := .next (s.copyLengthCode 13 c)

/-- `COPYLEN_14` (R282). -/
def execCopylen14 (c : Nat) (s : State) : Host.Outcome State Fault Refusal := .next (s.copyLengthCode 14 c)

/-- `COPYLEN_15` (R282). -/
def execCopylen15 (c : Nat) (s : State) : Host.Outcome State Fault Refusal := .next (s.copyLengthCode 15 c)

/-- `COPYLEN_16` (R282). -/
def execCopylen16 (c : Nat) (s : State) : Host.Outcome State Fault Refusal := .next (s.copyLengthCode 16 c)

/-- `COPYLEN_17` (R282). -/
def execCopylen17 (c : Nat) (s : State) : Host.Outcome State Fault Refusal := .next (s.copyLengthCode 17 c)

/-- `COPYLEN_18` (R282). -/
def execCopylen18 (c : Nat) (s : State) : Host.Outcome State Fault Refusal := .next (s.copyLengthCode 18 c)

/-- `COPYLEN_19` (R282). -/
def execCopylen19 (c : Nat) (s : State) : Host.Outcome State Fault Refusal := .next (s.copyLengthCode 19 c)

/-- `COPYLEN_20` (R282). -/
def execCopylen20 (c : Nat) (s : State) : Host.Outcome State Fault Refusal := .next (s.copyLengthCode 20 c)

/-- `COPYLEN_21` (R282). -/
def execCopylen21 (c : Nat) (s : State) : Host.Outcome State Fault Refusal := .next (s.copyLengthCode 21 c)

/-- `COPYLEN_22` (R282). -/
def execCopylen22 (c : Nat) (s : State) : Host.Outcome State Fault Refusal := .next (s.copyLengthCode 22 c)

/-- `COPYLEN_23` (R282). -/
def execCopylen23 (c : Nat) (s : State) : Host.Outcome State Fault Refusal := .next (s.copyLengthCode 23 c)

/-- `LIT` (R290). -/
def execLit (b : Byte) (s : State) : Host.Outcome State Fault Refusal := .next (s.literal b)

/-- `DIST_IMPLICIT` (R300). -/
def execDistImplicit (s : State) : Host.Outcome State Fault Refusal := .next s.lastDistance

/-- `DIST_SHORT_0` (R303). -/
def execDistShort0 (s : State) : Host.Outcome State Fault Refusal := .next (s.shortCode 0)

/-- `DIST_SHORT_1` (R303). -/
def execDistShort1 (s : State) : Host.Outcome State Fault Refusal := .next (s.shortCode 1)

/-- `DIST_SHORT_2` (R303). -/
def execDistShort2 (s : State) : Host.Outcome State Fault Refusal := .next (s.shortCode 2)

/-- `DIST_SHORT_3` (R303). -/
def execDistShort3 (s : State) : Host.Outcome State Fault Refusal := .next (s.shortCode 3)

/-- `DIST_SHORT_4` (R303). -/
def execDistShort4 (s : State) : Host.Outcome State Fault Refusal := .next (s.shortCode 4)

/-- `DIST_SHORT_5` (R303). -/
def execDistShort5 (s : State) : Host.Outcome State Fault Refusal := .next (s.shortCode 5)

/-- `DIST_SHORT_6` (R303). -/
def execDistShort6 (s : State) : Host.Outcome State Fault Refusal := .next (s.shortCode 6)

/-- `DIST_SHORT_7` (R303). -/
def execDistShort7 (s : State) : Host.Outcome State Fault Refusal := .next (s.shortCode 7)

/-- `DIST_SHORT_8` (R303). -/
def execDistShort8 (s : State) : Host.Outcome State Fault Refusal := .next (s.shortCode 8)

/-- `DIST_SHORT_9` (R303). -/
def execDistShort9 (s : State) : Host.Outcome State Fault Refusal := .next (s.shortCode 9)

/-- `DIST_SHORT_10` (R303). -/
def execDistShort10 (s : State) : Host.Outcome State Fault Refusal := .next (s.shortCode 10)

/-- `DIST_SHORT_11` (R303). -/
def execDistShort11 (s : State) : Host.Outcome State Fault Refusal := .next (s.shortCode 11)

/-- `DIST_SHORT_12` (R303). -/
def execDistShort12 (s : State) : Host.Outcome State Fault Refusal := .next (s.shortCode 12)

/-- `DIST_SHORT_13` (R303). -/
def execDistShort13 (s : State) : Host.Outcome State Fault Refusal := .next (s.shortCode 13)

/-- `DIST_SHORT_14` (R303). -/
def execDistShort14 (s : State) : Host.Outcome State Fault Refusal := .next (s.shortCode 14)

/-- `DIST_SHORT_15` (R303). -/
def execDistShort15 (s : State) : Host.Outcome State Fault Refusal := .next (s.shortCode 15)

/-- `DIST_DIRECT` (R305). -/
def execDistDirect (sym : Nat) (s : State) : Host.Outcome State Fault Refusal := .next (s.directCode sym)

/-- `DIST_LONG` (R306). -/
def execDistLong (sym : Nat) (x : Nat) (s : State) : Host.Outcome State Fault Refusal := .next (s.longCode sym x)

end Sys2Proof.Machine
end

