-- ==== Sys2Proof/Machine/Session.lean ====
section
/-! DEFINITION. Meanings of the seven host commands (46_session.md; 70_reset_and_hazards.md rule R480), and the one-shot
`decodeAll` as the script it stands for (R145). -/

namespace Sys2Proof.Machine

/-! ## Shared operations -/

/-- The status values after a command returned `r`: a `Decompress` leaves its own, any other command the last one's (R43). -/
def CommandResult.reported (r : CommandResult) (before : Option CallReport) : Option CallReport :=
  match r with
  | .decompressed n status => some ⟨n, status⟩
  | .none | .ok | .error _ => before

/-- The command returns `r` (R400). -/
def State.answer (s : State) (r : CommandResult) : State :=
  { s with result := r, report := r.reported s.report }

/-- A command with an effect in the states `legal` only (R407, R408): in Closed it answers `AlreadyClosed` and changes
nothing; on a failed session it answers the stored kind; elsewhere it raises `misuse`. -/
def State.commandIn (s : State) (legal : RunningState) (misuse : ErrorKind) (effect : State → State) : State :=
  match s.st.runningState with
  | .closed => s.answer (.error .alreadyClosed)
  | .error k => s.answer (.error k)
  | r => if r = legal then effect s else (s.raise misuse).answer (.error misuse)

/-- `Reset` (R480, R484): every register at its reset value, the source unbound; the build's constants, the host's buffer
and the host's further commands are not the engine's to reset. -/
def State.hardReset (s : State) : State :=
  { State.reset with HOSTBUF := s.HOSTBUF, script := s.script, params := s.params, rom := s.rom }

/-- `Init(source)` (R401). -/
def State.initSession (source : List SourceAnswer) (s : State) : State :=
  { s with st := { s.st with runningState := .initialized }, source := source, result := .ok }

/-- `EnableLargeWindow()` (R402). -/
def State.allowLargeWindow (s : State) : State :=
  { s with
    st := { s.st with cfgLargeWindow := s.params.largeWindowSupported || s.st.cfgLargeWindow }
    result := .ok }

/-- `EnableEagerOutput()` (R403). -/
def State.setEager (s : State) : State := { s with st := { s.st with cfgEager := true }, result := .ok }

/-- `AttachDictionaryChunk(bytes)` (R404). -/
def State.attachChunk (chunk : List Byte) (s : State) : State :=
  if s.st.cdNumChunks = Config.cdMaxChunks ∨ s.st.cdTotalSize + chunk.length > s.params.cdCap then
    (s.raise .compoundDictionaryOverflow).answer (.error .compoundDictionaryOverflow)
  else
    { s with
      st := { s.st with
        CD := s.st.CD ++ chunk
        cdNumChunks := s.st.cdNumChunks + 1
        cdChunkOffsets := s.st.cdChunkOffsets.setIfInBounds (s.st.cdNumChunks + 1)
          (s.st.cdTotalSize + chunk.length) }
      result := .ok }

/-- `Decompress(cap)` up to its loop (R405): the call begins, or it returns at once. -/
def State.beginCall (s : State) (cap : Nat) : State :=
  match s.st.runningState with
  | .closed => s.answer (.decompressed 0 (.error .alreadyClosed))
  | .error k => s.answer (.decompressed 0 (.error k))
  | .uninitialized =>
    (s.raise .invalidRuntimeStateTransition).answer
      (.decompressed s.base.outCount (.error .invalidRuntimeStateTransition))
  | _ => { s with st := { s.st with outCap := cap, outCount := 0 }, HOSTBUF := [], inCall := true }

/-- `Close()` (R406). -/
def State.closeSession (s : State) : State :=
  { s with st := { s.st with runningState := .closed }, result := .ok }

/-- `decodeAll(bytes, dict?)` as a script of `calls` `Decompress` commands of capacity `cap` (R145). -/
def decodeAllScript (bytes : List Byte) (dict : Option (List Byte)) (cap calls : Nat) : List Command :=
  [⟨0, [], [], 0⟩, ⟨1, [.bytes bytes, .eof], [], 0⟩] ++
  (match dict with
   | none => []
   | some d => [⟨4, [], d, 0⟩]) ++
  List.replicate calls ⟨5, [], [], cap⟩ ++ [⟨6, [], [], 0⟩]

/-! ## The rows -/

/-- `Reset` (R480). -/
def execReset (s : State) : Host.Outcome State Fault Refusal := .next s.hardReset

/-- `Init` (R401). -/
def execInit (src : List SourceAnswer) (s : State) : Host.Outcome State Fault Refusal :=
  .next (s.commandIn .uninitialized .doubleInitialization (State.initSession src))

/-- `EnableLargeWindow` (R402). -/
def execEnableLargeWindow (s : State) : Host.Outcome State Fault Refusal :=
  .next (s.commandIn .initialized .invalidRuntimeStateTransition State.allowLargeWindow)

/-- `EnableEagerOutput` (R403). -/
def execEnableEagerOutput (s : State) : Host.Outcome State Fault Refusal :=
  .next (s.commandIn .initialized .invalidRuntimeStateTransition State.setEager)

/-- `AttachDictionaryChunk` (R404). -/
def execAttachDictionaryChunk (chunk : List Byte) (s : State) : Host.Outcome State Fault Refusal :=
  .next (s.commandIn .initialized .invalidRuntimeStateTransition (State.attachChunk chunk))

/-- `Decompress` (R405). -/
def execDecompress (cap : Nat) (s : State) : Host.Outcome State Fault Refusal := .next (s.beginCall cap)

/-- `Close` (R406). -/
def execClose (s : State) : Host.Outcome State Fault Refusal := .next s.closeSession

end Sys2Proof.Machine
end

