-- ==== Sys2Proof/Machine/Stream.lean ====
section
/-! DEFINITION. Meanings of the stream header, the meta-block header, alignment and raw bytes (42_metablock.md sections 1
to 4). -/

namespace Sys2Proof.Machine

/-! ## Shared operations -/

/-- The end of the stream-header step, with `WBITS = wb` (R220). -/
def State.setWindow (s : State) (large : Bool) (wb : Nat) : State :=
  { s with
    st := { s.st with
      windowBits := wb
      maxBackwardDistance := 2 ^ wb - 16
      isLargeWindow := large || s.st.isLargeWindow
      runningState := .blockStart
      field := .start } }

/-- The large-window form with `LWBITS = wb` (R113, R220). -/
def State.setLargeWindow (s : State) (wb : Nat) : State :=
  if wb < 10 ∨ 30 < wb then s.raise .corruptWindowBits else s.setWindow true wb

/-- `CompressedHeader()`: to the first phase of the compressed header, the tree groups discarded (R229, R30). -/
def DecoderState.compressedHeader (st : DecoderState) : DecoderState :=
  { st with
    hphase := .partL
    hsub := 0
    hidx := 0
    pcActive := false
    literalTrees := []
    commandTrees := []
    distanceTrees := []
    runningState := .metablockHuffmanData
    field := .start }

/-- `ISLAST` (R224). -/
def State.headerIsLast (s : State) (a : Bool) : State :=
  { s with
    st := { s.st with
      isLast := a
      isUncompressed := false
      isMetadata := false
      metaBlockLength := 0
      field := if a then .isLastEmpty else .mnibbles } }

/-- `ISLASTEMPTY` (R224). -/
def State.headerIsLastEmpty (s : State) (a : Bool) : State :=
  { s with
    st := if a then { s.st with runningState := .blockStart, field := .start } else { s.st with field := .mnibbles } }

/-- `MNIBBLES` of `n`: 4, 5 or 6 nibbles, or a metadata header (R224). -/
def State.headerNibbles (s : State) (n : Nat) : State :=
  { s with
    st := if n = 3 then { s.st with isMetadata := true, field := .reserved }
      else { s.st with field := .mlen (n + 4) } }

/-- `MLENM1` of `nn` nibbles; a zero top nibble is illegal beyond 4 nibbles (R115, R225). -/
def State.headerLength (s : State) (nn m : Nat) : State :=
  if nn > 4 ∧ m / 2 ^ (4 * (nn - 1)) = 0 then s.raise .corruptMetablockLength
  else
    let st := { s.st with metaBlockLength := m + 1 }
    { s with st := if st.isLast then st.compressedHeader else { st with field := .isUncompressed } }

/-- `ISUNCOMPRESSED` (R225). -/
def State.headerIsUncompressed (s : State) (a : Bool) : State :=
  let st := { s.st with isUncompressed := a }
  { s with st := if a then { st with field := .pad } else st.compressedHeader }

/-- `RESERVED`, read as 0 (R226). -/
def State.headerReserved (s : State) : State := { s with st := { s.st with field := .mskipbytes } }

/-- `MSKIPBYTES` of `n` (R226). -/
def State.headerSkipBytes (s : State) (n : Nat) : State :=
  { s with
    st := if n = 0 then { s.st with metaBlockLength := 0, field := .pad } else { s.st with field := .mskiplen n } }

/-- `MSKIPLENM1` of `n` bytes; a zero top byte is illegal beyond 1 byte (R115, R226). -/
def State.headerSkipLength (s : State) (n k : Nat) : State :=
  if n > 1 ∧ k / 2 ^ (8 * (n - 1)) = 0 then s.raise .corruptMetablockLength
  else { s with st := { s.st with metaBlockLength := k + 1, field := .pad } }

/-- The padding before the payload, its bits zero (R157): on to the payload (R226, R228). -/
def State.headerPadded (s : State) : State :=
  { s with
    st := { s.st with runningState := if s.st.isMetadata then .metadata else .uncompressed, field := .start } }

/-- A raw byte of an uncompressed meta-block (R230). -/
def State.rawByte (s : State) (b : Byte) : State :=
  { s with
    st := ({ s.st.emit b with metaBlockLength := s.st.metaBlockLength - 1, field := .start } :
      DecoderState).fenceTest .uncompressed }

/-- A byte of a metadata meta-block (R231). -/
def State.skipByte (s : State) : State :=
  { s with st := { s.st with metaBlockLength := s.st.metaBlockLength - 1, field := .start } }

/-- The padding at the end of the stream, its bits zero; the same step goes on to `AtEnd()` (R159, R392). -/
def State.finalPadded (s : State) : State := { s with st := { s.st with field := .atEnd } }

/-! ## The rows -/

/-- `WBITS_16` (R220). -/
def execWbits16 (s : State) : Host.Outcome State Fault Refusal := .next (s.setWindow false 16)

/-- `WBITS_18` (R220). -/
def execWbits18 (s : State) : Host.Outcome State Fault Refusal := .next (s.setWindow false 18)

/-- `WBITS_19` (R220). -/
def execWbits19 (s : State) : Host.Outcome State Fault Refusal := .next (s.setWindow false 19)

/-- `WBITS_20` (R220). -/
def execWbits20 (s : State) : Host.Outcome State Fault Refusal := .next (s.setWindow false 20)

/-- `WBITS_21` (R220). -/
def execWbits21 (s : State) : Host.Outcome State Fault Refusal := .next (s.setWindow false 21)

/-- `WBITS_22` (R220). -/
def execWbits22 (s : State) : Host.Outcome State Fault Refusal := .next (s.setWindow false 22)

/-- `WBITS_23` (R220). -/
def execWbits23 (s : State) : Host.Outcome State Fault Refusal := .next (s.setWindow false 23)

/-- `WBITS_24` (R220). -/
def execWbits24 (s : State) : Host.Outcome State Fault Refusal := .next (s.setWindow false 24)

/-- `WBITS_17` (R220). -/
def execWbits17 (s : State) : Host.Outcome State Fault Refusal := .next (s.setWindow false 17)

/-- `WBITS_10` (R220). -/
def execWbits10 (s : State) : Host.Outcome State Fault Refusal := .next (s.setWindow false 10)

/-- `WBITS_11` (R220). -/
def execWbits11 (s : State) : Host.Outcome State Fault Refusal := .next (s.setWindow false 11)

/-- `WBITS_12` (R220). -/
def execWbits12 (s : State) : Host.Outcome State Fault Refusal := .next (s.setWindow false 12)

/-- `WBITS_13` (R220). -/
def execWbits13 (s : State) : Host.Outcome State Fault Refusal := .next (s.setWindow false 13)

/-- `WBITS_14` (R220). -/
def execWbits14 (s : State) : Host.Outcome State Fault Refusal := .next (s.setWindow false 14)

/-- `WBITS_15` (R220). -/
def execWbits15 (s : State) : Host.Outcome State Fault Refusal := .next (s.setWindow false 15)

/-- `WBITS_LARGE` (R220). -/
def execWbitsLarge (w : Nat) (s : State) : Host.Outcome State Fault Refusal := .next (s.setLargeWindow w)

/-- `WBITS_RESERVED` (R441). -/
def execWbitsReserved (s : State) : Host.Outcome State Fault Refusal := .next (s.raise .corruptWindowBits)

/-- `ISLAST` (R224). -/
def execIslast (a : Bool) (s : State) : Host.Outcome State Fault Refusal := .next (s.headerIsLast a)

/-- `ISLASTEMPTY` (R224). -/
def execIslastempty (a : Bool) (s : State) : Host.Outcome State Fault Refusal := .next (s.headerIsLastEmpty a)

/-- `MNIBBLES_0` (R224). -/
def execMnibbles_0 (s : State) : Host.Outcome State Fault Refusal := .next (s.headerNibbles 0)

/-- `MNIBBLES_1` (R224). -/
def execMnibbles_1 (s : State) : Host.Outcome State Fault Refusal := .next (s.headerNibbles 1)

/-- `MNIBBLES_2` (R224). -/
def execMnibbles_2 (s : State) : Host.Outcome State Fault Refusal := .next (s.headerNibbles 2)

/-- `MNIBBLES_3` (R224). -/
def execMnibbles_3 (s : State) : Host.Outcome State Fault Refusal := .next (s.headerNibbles 3)

/-- `MLENM1_4N` (R225). -/
def execMlenm1_4n (m : Nat) (s : State) : Host.Outcome State Fault Refusal := .next (s.headerLength 4 m)

/-- `MLENM1_5N` (R225). -/
def execMlenm1_5n (m : Nat) (s : State) : Host.Outcome State Fault Refusal := .next (s.headerLength 5 m)

/-- `MLENM1_6N` (R225). -/
def execMlenm1_6n (m : Nat) (s : State) : Host.Outcome State Fault Refusal := .next (s.headerLength 6 m)

/-- `ISUNCOMPRESSED` (R228). -/
def execIsuncompressed (a : Bool) (s : State) : Host.Outcome State Fault Refusal := .next (s.headerIsUncompressed a)

/-- `RESERVED` (R226). -/
def execReserved (s : State) : Host.Outcome State Fault Refusal := .next s.headerReserved

/-- `MSKIPBYTES_0` (R226). -/
def execMskipbytes_0 (s : State) : Host.Outcome State Fault Refusal := .next (s.headerSkipBytes 0)

/-- `MSKIPBYTES_1` (R226). -/
def execMskipbytes_1 (s : State) : Host.Outcome State Fault Refusal := .next (s.headerSkipBytes 1)

/-- `MSKIPBYTES_2` (R226). -/
def execMskipbytes_2 (s : State) : Host.Outcome State Fault Refusal := .next (s.headerSkipBytes 2)

/-- `MSKIPBYTES_3` (R226). -/
def execMskipbytes_3 (s : State) : Host.Outcome State Fault Refusal := .next (s.headerSkipBytes 3)

/-- `MSKIPLENM1_1B` (R226). -/
def execMskiplenm1_1b (k : Nat) (s : State) : Host.Outcome State Fault Refusal := .next (s.headerSkipLength 1 k)

/-- `MSKIPLENM1_2B` (R226). -/
def execMskiplenm1_2b (k : Nat) (s : State) : Host.Outcome State Fault Refusal := .next (s.headerSkipLength 2 k)

/-- `MSKIPLENM1_3B` (R226). -/
def execMskiplenm1_3b (k : Nat) (s : State) : Host.Outcome State Fault Refusal := .next (s.headerSkipLength 3 k)

/-- `PAD` (R157). -/
def execPad (_n : Nat) (s : State) : Host.Outcome State Fault Refusal := .next s.headerPadded

/-- `RAW` (R230). -/
def execRaw (b : Byte) (s : State) : Host.Outcome State Fault Refusal := .next (s.rawByte b)

/-- `SKIP` (R231). -/
def execSkip (_b : Byte) (s : State) : Host.Outcome State Fault Refusal := .next s.skipByte

/-- `FINALPAD` (R392). -/
def execFinalpad (_n : Nat) (s : State) : Host.Outcome State Fault Refusal := .next s.finalPadded

end Sys2Proof.Machine
end

