-- ==== Sys2Proof/Machine/Dispatch.lean ====
section
/-! DEFINITION. One arm per instruction: its meaning. -/

namespace Sys2Proof.Machine

def exec (i : Instr) (s : State) : Host.Outcome State Fault Refusal :=
  match i with
  | .wbits16 => Sys2Proof.Machine.execWbits16 s
  | .wbits18 => Sys2Proof.Machine.execWbits18 s
  | .wbits19 => Sys2Proof.Machine.execWbits19 s
  | .wbits20 => Sys2Proof.Machine.execWbits20 s
  | .wbits21 => Sys2Proof.Machine.execWbits21 s
  | .wbits22 => Sys2Proof.Machine.execWbits22 s
  | .wbits23 => Sys2Proof.Machine.execWbits23 s
  | .wbits24 => Sys2Proof.Machine.execWbits24 s
  | .wbits17 => Sys2Proof.Machine.execWbits17 s
  | .wbits10 => Sys2Proof.Machine.execWbits10 s
  | .wbits11 => Sys2Proof.Machine.execWbits11 s
  | .wbits12 => Sys2Proof.Machine.execWbits12 s
  | .wbits13 => Sys2Proof.Machine.execWbits13 s
  | .wbits14 => Sys2Proof.Machine.execWbits14 s
  | .wbits15 => Sys2Proof.Machine.execWbits15 s
  | .wbitsLarge w => Sys2Proof.Machine.execWbitsLarge w s
  | .wbitsReserved => Sys2Proof.Machine.execWbitsReserved s
  | .islast a => Sys2Proof.Machine.execIslast a s
  | .islastempty a => Sys2Proof.Machine.execIslastempty a s
  | .mnibbles_0 => Sys2Proof.Machine.execMnibbles_0 s
  | .mnibbles_1 => Sys2Proof.Machine.execMnibbles_1 s
  | .mnibbles_2 => Sys2Proof.Machine.execMnibbles_2 s
  | .mnibbles_3 => Sys2Proof.Machine.execMnibbles_3 s
  | .mlenm1_4n m => Sys2Proof.Machine.execMlenm1_4n m s
  | .mlenm1_5n m => Sys2Proof.Machine.execMlenm1_5n m s
  | .mlenm1_6n m => Sys2Proof.Machine.execMlenm1_6n m s
  | .isuncompressed a => Sys2Proof.Machine.execIsuncompressed a s
  | .reserved => Sys2Proof.Machine.execReserved s
  | .mskipbytes_0 => Sys2Proof.Machine.execMskipbytes_0 s
  | .mskipbytes_1 => Sys2Proof.Machine.execMskipbytes_1 s
  | .mskipbytes_2 => Sys2Proof.Machine.execMskipbytes_2 s
  | .mskipbytes_3 => Sys2Proof.Machine.execMskipbytes_3 s
  | .mskiplenm1_1b k => Sys2Proof.Machine.execMskiplenm1_1b k s
  | .mskiplenm1_2b k => Sys2Proof.Machine.execMskiplenm1_2b k s
  | .mskiplenm1_3b k => Sys2Proof.Machine.execMskiplenm1_3b k s
  | .pad n => Sys2Proof.Machine.execPad n s
  | .raw b => Sys2Proof.Machine.execRaw b s
  | .skip b => Sys2Proof.Machine.execSkip b s
  | .finalpad n => Sys2Proof.Machine.execFinalpad n s
  | .varlen8_1 => Sys2Proof.Machine.execVarlen8_1 s
  | .varlen8_2 => Sys2Proof.Machine.execVarlen8_2 s
  | .varlen8_n1 x => Sys2Proof.Machine.execVarlen8_n1 x s
  | .varlen8_n2 x => Sys2Proof.Machine.execVarlen8_n2 x s
  | .varlen8_n3 x => Sys2Proof.Machine.execVarlen8_n3 x s
  | .varlen8_n4 x => Sys2Proof.Machine.execVarlen8_n4 x s
  | .varlen8_n5 x => Sys2Proof.Machine.execVarlen8_n5 x s
  | .varlen8_n6 x => Sys2Proof.Machine.execVarlen8_n6 x s
  | .varlen8_n7 x => Sys2Proof.Machine.execVarlen8_n7 x s
  | .nbltypes v => Sys2Proof.Machine.execNbltypes v s
  | .ntrees v => Sys2Proof.Machine.execNtrees v s
  | .npostfix p => Sys2Proof.Machine.execNpostfix p s
  | .ndirecthi d => Sys2Proof.Machine.execNdirecthi d s
  | .cmodeLsb6 => Sys2Proof.Machine.execCmodeLsb6 s
  | .cmodeMsb6 => Sys2Proof.Machine.execCmodeMsb6 s
  | .cmodeUtf8 => Sys2Proof.Machine.execCmodeUtf8 s
  | .cmodeSigned => Sys2Proof.Machine.execCmodeSigned s
  | .rlemaxflag a => Sys2Proof.Machine.execRlemaxflag a s
  | .rlemaxm1 r => Sys2Proof.Machine.execRlemaxm1 r s
  | .cmapZero => Sys2Proof.Machine.execCmapZero s
  | .cmapRun1 x => Sys2Proof.Machine.execCmapRun1 x s
  | .cmapRun2 x => Sys2Proof.Machine.execCmapRun2 x s
  | .cmapRun3 x => Sys2Proof.Machine.execCmapRun3 x s
  | .cmapRun4 x => Sys2Proof.Machine.execCmapRun4 x s
  | .cmapRun5 x => Sys2Proof.Machine.execCmapRun5 x s
  | .cmapRun6 x => Sys2Proof.Machine.execCmapRun6 x s
  | .cmapRun7 x => Sys2Proof.Machine.execCmapRun7 x s
  | .cmapRun8 x => Sys2Proof.Machine.execCmapRun8 x s
  | .cmapRun9 x => Sys2Proof.Machine.execCmapRun9 x s
  | .cmapRun10 x => Sys2Proof.Machine.execCmapRun10 x s
  | .cmapRun11 x => Sys2Proof.Machine.execCmapRun11 x s
  | .cmapRun12 x => Sys2Proof.Machine.execCmapRun12 x s
  | .cmapRun13 x => Sys2Proof.Machine.execCmapRun13 x s
  | .cmapRun14 x => Sys2Proof.Machine.execCmapRun14 x s
  | .cmapRun15 x => Sys2Proof.Machine.execCmapRun15 x s
  | .cmapRun16 x => Sys2Proof.Machine.execCmapRun16 x s
  | .cmapValue c => Sys2Proof.Machine.execCmapValue c s
  | .imtf a => Sys2Proof.Machine.execImtf a s
  | .hskip_0 => Sys2Proof.Machine.execHskip_0 s
  | .hskip_1 => Sys2Proof.Machine.execHskip_1 s
  | .hskip_2 => Sys2Proof.Machine.execHskip_2 s
  | .hskip_3 => Sys2Proof.Machine.execHskip_3 s
  | .nsymm1_0 => Sys2Proof.Machine.execNsymm1_0 s
  | .nsymm1_1 => Sys2Proof.Machine.execNsymm1_1 s
  | .nsymm1_2 => Sys2Proof.Machine.execNsymm1_2 s
  | .nsymm1_3 => Sys2Proof.Machine.execNsymm1_3 s
  | .symbol v => Sys2Proof.Machine.execSymbol v s
  | .treeselect a => Sys2Proof.Machine.execTreeselect a s
  | .cllen_0 => Sys2Proof.Machine.execCllen_0 s
  | .cllen_1 => Sys2Proof.Machine.execCllen_1 s
  | .cllen_2 => Sys2Proof.Machine.execCllen_2 s
  | .cllen_3 => Sys2Proof.Machine.execCllen_3 s
  | .cllen_4 => Sys2Proof.Machine.execCllen_4 s
  | .cllen_5 => Sys2Proof.Machine.execCllen_5 s
  | .clsym_0 => Sys2Proof.Machine.execClsym_0 s
  | .clsym_1 => Sys2Proof.Machine.execClsym_1 s
  | .clsym_2 => Sys2Proof.Machine.execClsym_2 s
  | .clsym_3 => Sys2Proof.Machine.execClsym_3 s
  | .clsym_4 => Sys2Proof.Machine.execClsym_4 s
  | .clsym_5 => Sys2Proof.Machine.execClsym_5 s
  | .clsym_6 => Sys2Proof.Machine.execClsym_6 s
  | .clsym_7 => Sys2Proof.Machine.execClsym_7 s
  | .clsym_8 => Sys2Proof.Machine.execClsym_8 s
  | .clsym_9 => Sys2Proof.Machine.execClsym_9 s
  | .clsym_10 => Sys2Proof.Machine.execClsym_10 s
  | .clsym_11 => Sys2Proof.Machine.execClsym_11 s
  | .clsym_12 => Sys2Proof.Machine.execClsym_12 s
  | .clsym_13 => Sys2Proof.Machine.execClsym_13 s
  | .clsym_14 => Sys2Proof.Machine.execClsym_14 s
  | .clsym_15 => Sys2Proof.Machine.execClsym_15 s
  | .clsym_16 x => Sys2Proof.Machine.execClsym_16 x s
  | .clsym_17 x => Sys2Proof.Machine.execClsym_17 x s
  | .btypePrev => Sys2Proof.Machine.execBtypePrev s
  | .btypeNext => Sys2Proof.Machine.execBtypeNext s
  | .btypeAbs t => Sys2Proof.Machine.execBtypeAbs t s
  | .blen_0 x => Sys2Proof.Machine.execBlen_0 x s
  | .blen_1 x => Sys2Proof.Machine.execBlen_1 x s
  | .blen_2 x => Sys2Proof.Machine.execBlen_2 x s
  | .blen_3 x => Sys2Proof.Machine.execBlen_3 x s
  | .blen_4 x => Sys2Proof.Machine.execBlen_4 x s
  | .blen_5 x => Sys2Proof.Machine.execBlen_5 x s
  | .blen_6 x => Sys2Proof.Machine.execBlen_6 x s
  | .blen_7 x => Sys2Proof.Machine.execBlen_7 x s
  | .blen_8 x => Sys2Proof.Machine.execBlen_8 x s
  | .blen_9 x => Sys2Proof.Machine.execBlen_9 x s
  | .blen_10 x => Sys2Proof.Machine.execBlen_10 x s
  | .blen_11 x => Sys2Proof.Machine.execBlen_11 x s
  | .blen_12 x => Sys2Proof.Machine.execBlen_12 x s
  | .blen_13 x => Sys2Proof.Machine.execBlen_13 x s
  | .blen_14 x => Sys2Proof.Machine.execBlen_14 x s
  | .blen_15 x => Sys2Proof.Machine.execBlen_15 x s
  | .blen_16 x => Sys2Proof.Machine.execBlen_16 x s
  | .blen_17 x => Sys2Proof.Machine.execBlen_17 x s
  | .blen_18 x => Sys2Proof.Machine.execBlen_18 x s
  | .blen_19 x => Sys2Proof.Machine.execBlen_19 x s
  | .blen_20 x => Sys2Proof.Machine.execBlen_20 x s
  | .blen_21 x => Sys2Proof.Machine.execBlen_21 x s
  | .blen_22 x => Sys2Proof.Machine.execBlen_22 x s
  | .blen_23 x => Sys2Proof.Machine.execBlen_23 x s
  | .blen_24 x => Sys2Proof.Machine.execBlen_24 x s
  | .blen_25 x => Sys2Proof.Machine.execBlen_25 x s
  | .cmdCell0 sym => Sys2Proof.Machine.execCmdCell0 sym s
  | .cmdCell1 sym => Sys2Proof.Machine.execCmdCell1 sym s
  | .cmdCell2 sym => Sys2Proof.Machine.execCmdCell2 sym s
  | .cmdCell3 sym => Sys2Proof.Machine.execCmdCell3 sym s
  | .cmdCell4 sym => Sys2Proof.Machine.execCmdCell4 sym s
  | .cmdCell5 sym => Sys2Proof.Machine.execCmdCell5 sym s
  | .cmdCell6 sym => Sys2Proof.Machine.execCmdCell6 sym s
  | .cmdCell7 sym => Sys2Proof.Machine.execCmdCell7 sym s
  | .cmdCell8 sym => Sys2Proof.Machine.execCmdCell8 sym s
  | .cmdCell9 sym => Sys2Proof.Machine.execCmdCell9 sym s
  | .cmdCell10 sym => Sys2Proof.Machine.execCmdCell10 sym s
  | .inslen0 x => Sys2Proof.Machine.execInslen0 x s
  | .inslen1 x => Sys2Proof.Machine.execInslen1 x s
  | .inslen2 x => Sys2Proof.Machine.execInslen2 x s
  | .inslen3 x => Sys2Proof.Machine.execInslen3 x s
  | .inslen4 x => Sys2Proof.Machine.execInslen4 x s
  | .inslen5 x => Sys2Proof.Machine.execInslen5 x s
  | .inslen6 x => Sys2Proof.Machine.execInslen6 x s
  | .inslen7 x => Sys2Proof.Machine.execInslen7 x s
  | .inslen8 x => Sys2Proof.Machine.execInslen8 x s
  | .inslen9 x => Sys2Proof.Machine.execInslen9 x s
  | .inslen10 x => Sys2Proof.Machine.execInslen10 x s
  | .inslen11 x => Sys2Proof.Machine.execInslen11 x s
  | .inslen12 x => Sys2Proof.Machine.execInslen12 x s
  | .inslen13 x => Sys2Proof.Machine.execInslen13 x s
  | .inslen14 x => Sys2Proof.Machine.execInslen14 x s
  | .inslen15 x => Sys2Proof.Machine.execInslen15 x s
  | .inslen16 x => Sys2Proof.Machine.execInslen16 x s
  | .inslen17 x => Sys2Proof.Machine.execInslen17 x s
  | .inslen18 x => Sys2Proof.Machine.execInslen18 x s
  | .inslen19 x => Sys2Proof.Machine.execInslen19 x s
  | .inslen20 x => Sys2Proof.Machine.execInslen20 x s
  | .inslen21 x => Sys2Proof.Machine.execInslen21 x s
  | .inslen22 x => Sys2Proof.Machine.execInslen22 x s
  | .inslen23 x => Sys2Proof.Machine.execInslen23 x s
  | .copylen0 c => Sys2Proof.Machine.execCopylen0 c s
  | .copylen1 c => Sys2Proof.Machine.execCopylen1 c s
  | .copylen2 c => Sys2Proof.Machine.execCopylen2 c s
  | .copylen3 c => Sys2Proof.Machine.execCopylen3 c s
  | .copylen4 c => Sys2Proof.Machine.execCopylen4 c s
  | .copylen5 c => Sys2Proof.Machine.execCopylen5 c s
  | .copylen6 c => Sys2Proof.Machine.execCopylen6 c s
  | .copylen7 c => Sys2Proof.Machine.execCopylen7 c s
  | .copylen8 c => Sys2Proof.Machine.execCopylen8 c s
  | .copylen9 c => Sys2Proof.Machine.execCopylen9 c s
  | .copylen10 c => Sys2Proof.Machine.execCopylen10 c s
  | .copylen11 c => Sys2Proof.Machine.execCopylen11 c s
  | .copylen12 c => Sys2Proof.Machine.execCopylen12 c s
  | .copylen13 c => Sys2Proof.Machine.execCopylen13 c s
  | .copylen14 c => Sys2Proof.Machine.execCopylen14 c s
  | .copylen15 c => Sys2Proof.Machine.execCopylen15 c s
  | .copylen16 c => Sys2Proof.Machine.execCopylen16 c s
  | .copylen17 c => Sys2Proof.Machine.execCopylen17 c s
  | .copylen18 c => Sys2Proof.Machine.execCopylen18 c s
  | .copylen19 c => Sys2Proof.Machine.execCopylen19 c s
  | .copylen20 c => Sys2Proof.Machine.execCopylen20 c s
  | .copylen21 c => Sys2Proof.Machine.execCopylen21 c s
  | .copylen22 c => Sys2Proof.Machine.execCopylen22 c s
  | .copylen23 c => Sys2Proof.Machine.execCopylen23 c s
  | .lit b => Sys2Proof.Machine.execLit b s
  | .distImplicit => Sys2Proof.Machine.execDistImplicit s
  | .distShort0 => Sys2Proof.Machine.execDistShort0 s
  | .distShort1 => Sys2Proof.Machine.execDistShort1 s
  | .distShort2 => Sys2Proof.Machine.execDistShort2 s
  | .distShort3 => Sys2Proof.Machine.execDistShort3 s
  | .distShort4 => Sys2Proof.Machine.execDistShort4 s
  | .distShort5 => Sys2Proof.Machine.execDistShort5 s
  | .distShort6 => Sys2Proof.Machine.execDistShort6 s
  | .distShort7 => Sys2Proof.Machine.execDistShort7 s
  | .distShort8 => Sys2Proof.Machine.execDistShort8 s
  | .distShort9 => Sys2Proof.Machine.execDistShort9 s
  | .distShort10 => Sys2Proof.Machine.execDistShort10 s
  | .distShort11 => Sys2Proof.Machine.execDistShort11 s
  | .distShort12 => Sys2Proof.Machine.execDistShort12 s
  | .distShort13 => Sys2Proof.Machine.execDistShort13 s
  | .distShort14 => Sys2Proof.Machine.execDistShort14 s
  | .distShort15 => Sys2Proof.Machine.execDistShort15 s
  | .distDirect sym => Sys2Proof.Machine.execDistDirect sym s
  | .distLong sym x => Sys2Proof.Machine.execDistLong sym x s
  | .transform0 => Sys2Proof.Machine.execTransform0 s
  | .transform1 => Sys2Proof.Machine.execTransform1 s
  | .transform2 => Sys2Proof.Machine.execTransform2 s
  | .transform3 => Sys2Proof.Machine.execTransform3 s
  | .transform4 => Sys2Proof.Machine.execTransform4 s
  | .transform5 => Sys2Proof.Machine.execTransform5 s
  | .transform6 => Sys2Proof.Machine.execTransform6 s
  | .transform7 => Sys2Proof.Machine.execTransform7 s
  | .transform8 => Sys2Proof.Machine.execTransform8 s
  | .transform9 => Sys2Proof.Machine.execTransform9 s
  | .transform10 => Sys2Proof.Machine.execTransform10 s
  | .transform11 => Sys2Proof.Machine.execTransform11 s
  | .transform12 => Sys2Proof.Machine.execTransform12 s
  | .transform13 => Sys2Proof.Machine.execTransform13 s
  | .transform14 => Sys2Proof.Machine.execTransform14 s
  | .transform15 => Sys2Proof.Machine.execTransform15 s
  | .transform16 => Sys2Proof.Machine.execTransform16 s
  | .transform17 => Sys2Proof.Machine.execTransform17 s
  | .transform18 => Sys2Proof.Machine.execTransform18 s
  | .transform19 => Sys2Proof.Machine.execTransform19 s
  | .transform20 => Sys2Proof.Machine.execTransform20 s
  | .transform21 => Sys2Proof.Machine.execTransform21 s
  | .transform22 => Sys2Proof.Machine.execTransform22 s
  | .transform23 => Sys2Proof.Machine.execTransform23 s
  | .transform24 => Sys2Proof.Machine.execTransform24 s
  | .transform25 => Sys2Proof.Machine.execTransform25 s
  | .transform26 => Sys2Proof.Machine.execTransform26 s
  | .transform27 => Sys2Proof.Machine.execTransform27 s
  | .transform28 => Sys2Proof.Machine.execTransform28 s
  | .transform29 => Sys2Proof.Machine.execTransform29 s
  | .transform30 => Sys2Proof.Machine.execTransform30 s
  | .transform31 => Sys2Proof.Machine.execTransform31 s
  | .transform32 => Sys2Proof.Machine.execTransform32 s
  | .transform33 => Sys2Proof.Machine.execTransform33 s
  | .transform34 => Sys2Proof.Machine.execTransform34 s
  | .transform35 => Sys2Proof.Machine.execTransform35 s
  | .transform36 => Sys2Proof.Machine.execTransform36 s
  | .transform37 => Sys2Proof.Machine.execTransform37 s
  | .transform38 => Sys2Proof.Machine.execTransform38 s
  | .transform39 => Sys2Proof.Machine.execTransform39 s
  | .transform40 => Sys2Proof.Machine.execTransform40 s
  | .transform41 => Sys2Proof.Machine.execTransform41 s
  | .transform42 => Sys2Proof.Machine.execTransform42 s
  | .transform43 => Sys2Proof.Machine.execTransform43 s
  | .transform44 => Sys2Proof.Machine.execTransform44 s
  | .transform45 => Sys2Proof.Machine.execTransform45 s
  | .transform46 => Sys2Proof.Machine.execTransform46 s
  | .transform47 => Sys2Proof.Machine.execTransform47 s
  | .transform48 => Sys2Proof.Machine.execTransform48 s
  | .transform49 => Sys2Proof.Machine.execTransform49 s
  | .transform50 => Sys2Proof.Machine.execTransform50 s
  | .transform51 => Sys2Proof.Machine.execTransform51 s
  | .transform52 => Sys2Proof.Machine.execTransform52 s
  | .transform53 => Sys2Proof.Machine.execTransform53 s
  | .transform54 => Sys2Proof.Machine.execTransform54 s
  | .transform55 => Sys2Proof.Machine.execTransform55 s
  | .transform56 => Sys2Proof.Machine.execTransform56 s
  | .transform57 => Sys2Proof.Machine.execTransform57 s
  | .transform58 => Sys2Proof.Machine.execTransform58 s
  | .transform59 => Sys2Proof.Machine.execTransform59 s
  | .transform60 => Sys2Proof.Machine.execTransform60 s
  | .transform61 => Sys2Proof.Machine.execTransform61 s
  | .transform62 => Sys2Proof.Machine.execTransform62 s
  | .transform63 => Sys2Proof.Machine.execTransform63 s
  | .transform64 => Sys2Proof.Machine.execTransform64 s
  | .transform65 => Sys2Proof.Machine.execTransform65 s
  | .transform66 => Sys2Proof.Machine.execTransform66 s
  | .transform67 => Sys2Proof.Machine.execTransform67 s
  | .transform68 => Sys2Proof.Machine.execTransform68 s
  | .transform69 => Sys2Proof.Machine.execTransform69 s
  | .transform70 => Sys2Proof.Machine.execTransform70 s
  | .transform71 => Sys2Proof.Machine.execTransform71 s
  | .transform72 => Sys2Proof.Machine.execTransform72 s
  | .transform73 => Sys2Proof.Machine.execTransform73 s
  | .transform74 => Sys2Proof.Machine.execTransform74 s
  | .transform75 => Sys2Proof.Machine.execTransform75 s
  | .transform76 => Sys2Proof.Machine.execTransform76 s
  | .transform77 => Sys2Proof.Machine.execTransform77 s
  | .transform78 => Sys2Proof.Machine.execTransform78 s
  | .transform79 => Sys2Proof.Machine.execTransform79 s
  | .transform80 => Sys2Proof.Machine.execTransform80 s
  | .transform81 => Sys2Proof.Machine.execTransform81 s
  | .transform82 => Sys2Proof.Machine.execTransform82 s
  | .transform83 => Sys2Proof.Machine.execTransform83 s
  | .transform84 => Sys2Proof.Machine.execTransform84 s
  | .transform85 => Sys2Proof.Machine.execTransform85 s
  | .transform86 => Sys2Proof.Machine.execTransform86 s
  | .transform87 => Sys2Proof.Machine.execTransform87 s
  | .transform88 => Sys2Proof.Machine.execTransform88 s
  | .transform89 => Sys2Proof.Machine.execTransform89 s
  | .transform90 => Sys2Proof.Machine.execTransform90 s
  | .transform91 => Sys2Proof.Machine.execTransform91 s
  | .transform92 => Sys2Proof.Machine.execTransform92 s
  | .transform93 => Sys2Proof.Machine.execTransform93 s
  | .transform94 => Sys2Proof.Machine.execTransform94 s
  | .transform95 => Sys2Proof.Machine.execTransform95 s
  | .transform96 => Sys2Proof.Machine.execTransform96 s
  | .transform97 => Sys2Proof.Machine.execTransform97 s
  | .transform98 => Sys2Proof.Machine.execTransform98 s
  | .transform99 => Sys2Proof.Machine.execTransform99 s
  | .transform100 => Sys2Proof.Machine.execTransform100 s
  | .transform101 => Sys2Proof.Machine.execTransform101 s
  | .transform102 => Sys2Proof.Machine.execTransform102 s
  | .transform103 => Sys2Proof.Machine.execTransform103 s
  | .transform104 => Sys2Proof.Machine.execTransform104 s
  | .transform105 => Sys2Proof.Machine.execTransform105 s
  | .transform106 => Sys2Proof.Machine.execTransform106 s
  | .transform107 => Sys2Proof.Machine.execTransform107 s
  | .transform108 => Sys2Proof.Machine.execTransform108 s
  | .transform109 => Sys2Proof.Machine.execTransform109 s
  | .transform110 => Sys2Proof.Machine.execTransform110 s
  | .transform111 => Sys2Proof.Machine.execTransform111 s
  | .transform112 => Sys2Proof.Machine.execTransform112 s
  | .transform113 => Sys2Proof.Machine.execTransform113 s
  | .transform114 => Sys2Proof.Machine.execTransform114 s
  | .transform115 => Sys2Proof.Machine.execTransform115 s
  | .transform116 => Sys2Proof.Machine.execTransform116 s
  | .transform117 => Sys2Proof.Machine.execTransform117 s
  | .transform118 => Sys2Proof.Machine.execTransform118 s
  | .transform119 => Sys2Proof.Machine.execTransform119 s
  | .transform120 => Sys2Proof.Machine.execTransform120 s
  | .reset => Sys2Proof.Machine.execReset s
  | .init src => Sys2Proof.Machine.execInit src s
  | .enableLargeWindow => Sys2Proof.Machine.execEnableLargeWindow s
  | .enableEagerOutput => Sys2Proof.Machine.execEnableEagerOutput s
  | .attachDictionaryChunk chunk => Sys2Proof.Machine.execAttachDictionaryChunk chunk s
  | .decompress cap => Sys2Proof.Machine.execDecompress cap s
  | .close => Sys2Proof.Machine.execClose s

end Sys2Proof.Machine
end

