-- ==== Sys2Proof/WellFormed.lean ====
section
/-! DEFINITION. Which instructions an encoding can hold: every operand fits the bits its row gives it
(30_encoding.md rules R112 to R126). The checks need no state; widths that depend on the control position are bounded
by the largest the spec allows there (R118: SYMBOL 11 bits; R154, R306: distance extra bits, most with NPOSTFIX and
NDIRECT 0). -/

namespace Sys2Proof

/-- The operands of `i` fit its row's fields. One arm per constructor. -/
def Instr.wellFormed (i : Instr) : Bool :=
  match i with
  | .wbits16 => true
  | .wbits18 => true
  | .wbits19 => true
  | .wbits20 => true
  | .wbits21 => true
  | .wbits22 => true
  | .wbits23 => true
  | .wbits24 => true
  | .wbits17 => true
  | .wbits10 => true
  | .wbits11 => true
  | .wbits12 => true
  | .wbits13 => true
  | .wbits14 => true
  | .wbits15 => true
  | .wbitsLarge w => decide (w < 2 ^ 6)
  | .wbitsReserved => true
  | .islast _ => true
  | .islastempty _ => true
  | .mnibbles_0 => true
  | .mnibbles_1 => true
  | .mnibbles_2 => true
  | .mnibbles_3 => true
  | .mlenm1_4n m => decide (m < 2 ^ 16)
  | .mlenm1_5n m => decide (m < 2 ^ 20)
  | .mlenm1_6n m => decide (m < 2 ^ 24)
  | .isuncompressed _ => true
  | .reserved => true
  | .mskipbytes_0 => true
  | .mskipbytes_1 => true
  | .mskipbytes_2 => true
  | .mskipbytes_3 => true
  | .mskiplenm1_1b k => decide (k < 2 ^ 8)
  | .mskiplenm1_2b k => decide (k < 2 ^ 16)
  | .mskiplenm1_3b k => decide (k < 2 ^ 24)
  | .pad n => decide (n < 8)
  | .raw _ => true
  | .skip _ => true
  | .finalpad n => decide (n < 8)
  | .varlen8_1 => true
  | .varlen8_2 => true
  | .varlen8_n1 x => decide (x < 2 ^ 1)
  | .varlen8_n2 x => decide (x < 2 ^ 2)
  | .varlen8_n3 x => decide (x < 2 ^ 3)
  | .varlen8_n4 x => decide (x < 2 ^ 4)
  | .varlen8_n5 x => decide (x < 2 ^ 5)
  | .varlen8_n6 x => decide (x < 2 ^ 6)
  | .varlen8_n7 x => decide (x < 2 ^ 7)
  | .nbltypes v => decide (1 ≤ v ∧ v ≤ 256)
  | .ntrees v => decide (1 ≤ v ∧ v ≤ 256)
  | .npostfix p => decide (p < 2 ^ 2)
  | .ndirecthi d => decide (d < 2 ^ 4)
  | .cmodeLsb6 => true
  | .cmodeMsb6 => true
  | .cmodeUtf8 => true
  | .cmodeSigned => true
  | .rlemaxflag _ => true
  | .rlemaxm1 r => decide (r < 2 ^ 4)
  | .cmapZero => true
  | .cmapRun1 x => decide (x < 2 ^ 1)
  | .cmapRun2 x => decide (x < 2 ^ 2)
  | .cmapRun3 x => decide (x < 2 ^ 3)
  | .cmapRun4 x => decide (x < 2 ^ 4)
  | .cmapRun5 x => decide (x < 2 ^ 5)
  | .cmapRun6 x => decide (x < 2 ^ 6)
  | .cmapRun7 x => decide (x < 2 ^ 7)
  | .cmapRun8 x => decide (x < 2 ^ 8)
  | .cmapRun9 x => decide (x < 2 ^ 9)
  | .cmapRun10 x => decide (x < 2 ^ 10)
  | .cmapRun11 x => decide (x < 2 ^ 11)
  | .cmapRun12 x => decide (x < 2 ^ 12)
  | .cmapRun13 x => decide (x < 2 ^ 13)
  | .cmapRun14 x => decide (x < 2 ^ 14)
  | .cmapRun15 x => decide (x < 2 ^ 15)
  | .cmapRun16 x => decide (x < 2 ^ 16)
  | .cmapValue c => decide (1 ≤ c ∧ c < 272)
  | .imtf _ => true
  | .hskip_0 => true
  | .hskip_1 => true
  | .hskip_2 => true
  | .hskip_3 => true
  | .nsymm1_0 => true
  | .nsymm1_1 => true
  | .nsymm1_2 => true
  | .nsymm1_3 => true
  | .symbol s => decide (s < 2 ^ 11)
  | .treeselect _ => true
  | .cllen_0 => true
  | .cllen_1 => true
  | .cllen_2 => true
  | .cllen_3 => true
  | .cllen_4 => true
  | .cllen_5 => true
  | .clsym_0 => true
  | .clsym_1 => true
  | .clsym_2 => true
  | .clsym_3 => true
  | .clsym_4 => true
  | .clsym_5 => true
  | .clsym_6 => true
  | .clsym_7 => true
  | .clsym_8 => true
  | .clsym_9 => true
  | .clsym_10 => true
  | .clsym_11 => true
  | .clsym_12 => true
  | .clsym_13 => true
  | .clsym_14 => true
  | .clsym_15 => true
  | .clsym_16 x => decide (x < 2 ^ 2)
  | .clsym_17 x => decide (x < 2 ^ 3)
  | .btypePrev => true
  | .btypeNext => true
  | .btypeAbs t => decide (2 ≤ t ∧ t < 258)
  | .blen_0 x => decide (x < 2 ^ 2)
  | .blen_1 x => decide (x < 2 ^ 2)
  | .blen_2 x => decide (x < 2 ^ 2)
  | .blen_3 x => decide (x < 2 ^ 2)
  | .blen_4 x => decide (x < 2 ^ 3)
  | .blen_5 x => decide (x < 2 ^ 3)
  | .blen_6 x => decide (x < 2 ^ 3)
  | .blen_7 x => decide (x < 2 ^ 3)
  | .blen_8 x => decide (x < 2 ^ 4)
  | .blen_9 x => decide (x < 2 ^ 4)
  | .blen_10 x => decide (x < 2 ^ 4)
  | .blen_11 x => decide (x < 2 ^ 4)
  | .blen_12 x => decide (x < 2 ^ 5)
  | .blen_13 x => decide (x < 2 ^ 5)
  | .blen_14 x => decide (x < 2 ^ 5)
  | .blen_15 x => decide (x < 2 ^ 5)
  | .blen_16 x => decide (x < 2 ^ 6)
  | .blen_17 x => decide (x < 2 ^ 6)
  | .blen_18 x => decide (x < 2 ^ 7)
  | .blen_19 x => decide (x < 2 ^ 8)
  | .blen_20 x => decide (x < 2 ^ 9)
  | .blen_21 x => decide (x < 2 ^ 10)
  | .blen_22 x => decide (x < 2 ^ 11)
  | .blen_23 x => decide (x < 2 ^ 12)
  | .blen_24 x => decide (x < 2 ^ 13)
  | .blen_25 x => decide (x < 2 ^ 24)
  | .cmdCell0 sym => decide (0 ≤ sym ∧ sym < 64)
  | .cmdCell1 sym => decide (64 ≤ sym ∧ sym < 128)
  | .cmdCell2 sym => decide (128 ≤ sym ∧ sym < 192)
  | .cmdCell3 sym => decide (192 ≤ sym ∧ sym < 256)
  | .cmdCell4 sym => decide (256 ≤ sym ∧ sym < 320)
  | .cmdCell5 sym => decide (320 ≤ sym ∧ sym < 384)
  | .cmdCell6 sym => decide (384 ≤ sym ∧ sym < 448)
  | .cmdCell7 sym => decide (448 ≤ sym ∧ sym < 512)
  | .cmdCell8 sym => decide (512 ≤ sym ∧ sym < 576)
  | .cmdCell9 sym => decide (576 ≤ sym ∧ sym < 640)
  | .cmdCell10 sym => decide (640 ≤ sym ∧ sym < 704)
  | .inslen0 i => decide (i < 2 ^ 0)
  | .inslen1 i => decide (i < 2 ^ 0)
  | .inslen2 i => decide (i < 2 ^ 0)
  | .inslen3 i => decide (i < 2 ^ 0)
  | .inslen4 i => decide (i < 2 ^ 0)
  | .inslen5 i => decide (i < 2 ^ 0)
  | .inslen6 i => decide (i < 2 ^ 1)
  | .inslen7 i => decide (i < 2 ^ 1)
  | .inslen8 i => decide (i < 2 ^ 2)
  | .inslen9 i => decide (i < 2 ^ 2)
  | .inslen10 i => decide (i < 2 ^ 3)
  | .inslen11 i => decide (i < 2 ^ 3)
  | .inslen12 i => decide (i < 2 ^ 4)
  | .inslen13 i => decide (i < 2 ^ 4)
  | .inslen14 i => decide (i < 2 ^ 5)
  | .inslen15 i => decide (i < 2 ^ 5)
  | .inslen16 i => decide (i < 2 ^ 6)
  | .inslen17 i => decide (i < 2 ^ 7)
  | .inslen18 i => decide (i < 2 ^ 8)
  | .inslen19 i => decide (i < 2 ^ 9)
  | .inslen20 i => decide (i < 2 ^ 10)
  | .inslen21 i => decide (i < 2 ^ 12)
  | .inslen22 i => decide (i < 2 ^ 14)
  | .inslen23 i => decide (i < 2 ^ 24)
  | .copylen0 c => decide (c < 2 ^ 0)
  | .copylen1 c => decide (c < 2 ^ 0)
  | .copylen2 c => decide (c < 2 ^ 0)
  | .copylen3 c => decide (c < 2 ^ 0)
  | .copylen4 c => decide (c < 2 ^ 0)
  | .copylen5 c => decide (c < 2 ^ 0)
  | .copylen6 c => decide (c < 2 ^ 0)
  | .copylen7 c => decide (c < 2 ^ 0)
  | .copylen8 c => decide (c < 2 ^ 1)
  | .copylen9 c => decide (c < 2 ^ 1)
  | .copylen10 c => decide (c < 2 ^ 2)
  | .copylen11 c => decide (c < 2 ^ 2)
  | .copylen12 c => decide (c < 2 ^ 3)
  | .copylen13 c => decide (c < 2 ^ 3)
  | .copylen14 c => decide (c < 2 ^ 4)
  | .copylen15 c => decide (c < 2 ^ 4)
  | .copylen16 c => decide (c < 2 ^ 5)
  | .copylen17 c => decide (c < 2 ^ 5)
  | .copylen18 c => decide (c < 2 ^ 6)
  | .copylen19 c => decide (c < 2 ^ 7)
  | .copylen20 c => decide (c < 2 ^ 8)
  | .copylen21 c => decide (c < 2 ^ 9)
  | .copylen22 c => decide (c < 2 ^ 10)
  | .copylen23 c => decide (c < 2 ^ 24)
  | .lit _ => true
  | .distImplicit => true
  | .distShort0 => true
  | .distShort1 => true
  | .distShort2 => true
  | .distShort3 => true
  | .distShort4 => true
  | .distShort5 => true
  | .distShort6 => true
  | .distShort7 => true
  | .distShort8 => true
  | .distShort9 => true
  | .distShort10 => true
  | .distShort11 => true
  | .distShort12 => true
  | .distShort13 => true
  | .distShort14 => true
  | .distShort15 => true
  | .distDirect sym => decide (16 ≤ sym ∧ sym < 136)
  | .distLong sym x => decide (16 ≤ sym ∧ sym < 1128 ∧ x < 2 ^ min 62 (1 + (sym - 16) / 2))
  | .transform0 => true
  | .transform1 => true
  | .transform2 => true
  | .transform3 => true
  | .transform4 => true
  | .transform5 => true
  | .transform6 => true
  | .transform7 => true
  | .transform8 => true
  | .transform9 => true
  | .transform10 => true
  | .transform11 => true
  | .transform12 => true
  | .transform13 => true
  | .transform14 => true
  | .transform15 => true
  | .transform16 => true
  | .transform17 => true
  | .transform18 => true
  | .transform19 => true
  | .transform20 => true
  | .transform21 => true
  | .transform22 => true
  | .transform23 => true
  | .transform24 => true
  | .transform25 => true
  | .transform26 => true
  | .transform27 => true
  | .transform28 => true
  | .transform29 => true
  | .transform30 => true
  | .transform31 => true
  | .transform32 => true
  | .transform33 => true
  | .transform34 => true
  | .transform35 => true
  | .transform36 => true
  | .transform37 => true
  | .transform38 => true
  | .transform39 => true
  | .transform40 => true
  | .transform41 => true
  | .transform42 => true
  | .transform43 => true
  | .transform44 => true
  | .transform45 => true
  | .transform46 => true
  | .transform47 => true
  | .transform48 => true
  | .transform49 => true
  | .transform50 => true
  | .transform51 => true
  | .transform52 => true
  | .transform53 => true
  | .transform54 => true
  | .transform55 => true
  | .transform56 => true
  | .transform57 => true
  | .transform58 => true
  | .transform59 => true
  | .transform60 => true
  | .transform61 => true
  | .transform62 => true
  | .transform63 => true
  | .transform64 => true
  | .transform65 => true
  | .transform66 => true
  | .transform67 => true
  | .transform68 => true
  | .transform69 => true
  | .transform70 => true
  | .transform71 => true
  | .transform72 => true
  | .transform73 => true
  | .transform74 => true
  | .transform75 => true
  | .transform76 => true
  | .transform77 => true
  | .transform78 => true
  | .transform79 => true
  | .transform80 => true
  | .transform81 => true
  | .transform82 => true
  | .transform83 => true
  | .transform84 => true
  | .transform85 => true
  | .transform86 => true
  | .transform87 => true
  | .transform88 => true
  | .transform89 => true
  | .transform90 => true
  | .transform91 => true
  | .transform92 => true
  | .transform93 => true
  | .transform94 => true
  | .transform95 => true
  | .transform96 => true
  | .transform97 => true
  | .transform98 => true
  | .transform99 => true
  | .transform100 => true
  | .transform101 => true
  | .transform102 => true
  | .transform103 => true
  | .transform104 => true
  | .transform105 => true
  | .transform106 => true
  | .transform107 => true
  | .transform108 => true
  | .transform109 => true
  | .transform110 => true
  | .transform111 => true
  | .transform112 => true
  | .transform113 => true
  | .transform114 => true
  | .transform115 => true
  | .transform116 => true
  | .transform117 => true
  | .transform118 => true
  | .transform119 => true
  | .transform120 => true
  | .reset => true
  | .init _ => true
  | .enableLargeWindow => true
  | .enableEagerOutput => true
  | .attachDictionaryChunk _ => true
  | .decompress _ => true
  | .close => true

end Sys2Proof
end

