-- ==== Sys2Proof/Decode.lean ====
section
/-! DEFINITION. Decoding: from the element that is next and the stream's bits to an instruction, or a rejection by name;
and the encoder, from the same encodings (30_encoding.md; 40_bitreader.md rules R151 to R158).

The bits alone do not say which element they are: the control position does (R110, R111). `Ctx` is what the control
position selects, and `Machine/Fetch.lean` computes it. -/

namespace Sys2Proof

open Machine (HuffmanTable tableAt insXbits copyXbits blenXbits)

/-- The element that is next, with the tables and parameters its layout depends on (R110, R111, R128). -/
inductive Ctx where
  | hostCommand (source : List SourceAnswer) (chunk : List Byte) (cap : Nat)
  | streamHeader (largeWindow : Bool)
  | isLast
  | isLastEmpty
  | mnibbles
  | mlen (nibbles : Nat)
  | isUncompressed
  | reserved
  | mskipbytes
  | mskiplen (bytes : Nat)
  | pad (width : Nat)
  | finalPad (width : Nat)
  | raw
  | skip
  | varlen8
  | nbltypes (v : Nat)
  | ntrees (v : Nat)
  | npostfix
  | ndirecthi
  | cmode
  | rlemaxflag
  | rlemaxm1
  | cmap (T : HuffmanTable) (rleMax : Nat)
  | imtf
  | hskip
  | nsymm1
  | symbol (width : Nat)
  | treeselect
  | cllen
  | clsym (T : HuffmanTable)
  | btype (T : HuffmanTable)
  | blen (T : HuffmanTable)
  | cmd (T : HuffmanTable)
  | insLen (code : Nat)
  | copyLen (code : Nat)
  | lit (T : HuffmanTable)
  | distImplicit
  | dist (T : HuffmanTable) (npostfix ndirect : Nat)
  | transform (n : Nat)
  deriving DecidableEq, Repr

/-- The bits at the cursor: `value` has bit `i` of the stream from the cursor on as its bit `i` (R80), `avail` bits have
been supplied, and `eof` says that no more will come. Bits of `value` at or above `avail` are 0 (R151). -/
structure Window where
  value : Nat
  avail : Nat
  eof : Bool
  deriving DecidableEq, Repr

/-- Why bits are no instruction. -/
inductive Reject where
  /-- an encoding the spec calls illegal, with the error it raises (R129), or the end of the stream (R152) -/
  | error (k : ErrorKind)
  /-- a lookup that leaves its table (R71: no rule reaches it) -/
  | tableHole
  /-- a host command code R400 does not define -/
  | badCommand
  deriving DecidableEq, Repr

/-- The outcome of reading an element: the instruction and the bits it consumes; or bits are missing and more may come
(R156); or a rejection. -/
inductive Read where
  | ok (i : Instr) (bits : Nat)
  | need
  | bad (r : Reject)
  deriving DecidableEq, Repr

/-! ## Reading fields (R151, R152, R153, R190) -/

/-- The `n`-bit field at offset `pos` (R7, R80). -/
def Window.field (w : Window) (pos n : Nat) : Nat := w.value / 2 ^ pos % 2 ^ n

/-- `ReadBits(n)` at offset `pos` (R153): starved, past the end (R152), or on to `k` with the value. -/
def Window.bits (w : Window) (pos n : Nat) (k : Nat → Read) : Read :=
  if pos + n ≤ w.avail then k (w.field pos n)
  else if w.eof then .bad (.error .unexpectedEOF) else .need

/-- `ReadSymbol(T)` at offset `pos` (R190, R192): the peek of 15 bits waits for bits that may come and reads missing ones
as 0 at the end of the stream; only the word's own length must be there. `k` gets the symbol and the offset after it. -/
def Window.sym (w : Window) (pos : Nat) (T : HuffmanTable) (k : Nat → Nat → Read) : Read :=
  if w.avail < pos + 15 ∧ w.eof = false then .need
  else
    match T.lookup (w.field pos 15) with
    | none => .bad .tableHole
    | some (s, n) =>
      if pos + n ≤ w.avail then k s (pos + n)
      else if w.eof then .bad (.error .unexpectedEOF) else .need

def Read.ofOption (o : Option Instr) (bits : Nat) : Read :=
  match o with
  | none => .bad .tableHole
  | some i => .ok i bits

/-! ## Rows of one family, by number -/

/-- `WBITS` of 17 + n and of 8 + m (R112). -/
def wbitsInstr (wb : Nat) : Option Instr :=
  match wb with
  | 10 => some Instr.wbits10
  | 11 => some Instr.wbits11
  | 12 => some Instr.wbits12
  | 13 => some Instr.wbits13
  | 14 => some Instr.wbits14
  | 15 => some Instr.wbits15
  | 16 => some Instr.wbits16
  | 17 => some Instr.wbits17
  | 18 => some Instr.wbits18
  | 19 => some Instr.wbits19
  | 20 => some Instr.wbits20
  | 21 => some Instr.wbits21
  | 22 => some Instr.wbits22
  | 23 => some Instr.wbits23
  | 24 => some Instr.wbits24
  | _ => none

/-- The rows of one family that carry a number, in the order of their numbers. -/
def blenRows : List (Nat → Instr) :=
  [Instr.blen_0, Instr.blen_1, Instr.blen_2, Instr.blen_3, Instr.blen_4, Instr.blen_5] ++
  [Instr.blen_6, Instr.blen_7, Instr.blen_8, Instr.blen_9, Instr.blen_10, Instr.blen_11] ++
  [Instr.blen_12, Instr.blen_13, Instr.blen_14, Instr.blen_15, Instr.blen_16, Instr.blen_17] ++
  [Instr.blen_18, Instr.blen_19, Instr.blen_20, Instr.blen_21, Instr.blen_22, Instr.blen_23] ++
  [Instr.blen_24, Instr.blen_25]
def inslenRows : List (Nat → Instr) :=
  [Instr.inslen0, Instr.inslen1, Instr.inslen2, Instr.inslen3, Instr.inslen4, Instr.inslen5] ++
  [Instr.inslen6, Instr.inslen7, Instr.inslen8, Instr.inslen9, Instr.inslen10, Instr.inslen11] ++
  [Instr.inslen12, Instr.inslen13, Instr.inslen14, Instr.inslen15, Instr.inslen16, Instr.inslen17] ++
  [Instr.inslen18, Instr.inslen19, Instr.inslen20, Instr.inslen21, Instr.inslen22, Instr.inslen23]
def copylenRows : List (Nat → Instr) :=
  [Instr.copylen0, Instr.copylen1, Instr.copylen2, Instr.copylen3, Instr.copylen4, Instr.copylen5] ++
  [Instr.copylen6, Instr.copylen7, Instr.copylen8, Instr.copylen9, Instr.copylen10, Instr.copylen11] ++
  [Instr.copylen12, Instr.copylen13, Instr.copylen14, Instr.copylen15, Instr.copylen16, Instr.copylen17] ++
  [Instr.copylen18, Instr.copylen19, Instr.copylen20, Instr.copylen21, Instr.copylen22, Instr.copylen23]
def cmapRunRows : List (Nat → Instr) :=
  [Instr.cmapRun1, Instr.cmapRun2, Instr.cmapRun3, Instr.cmapRun4, Instr.cmapRun5, Instr.cmapRun6] ++
  [Instr.cmapRun7, Instr.cmapRun8, Instr.cmapRun9, Instr.cmapRun10, Instr.cmapRun11, Instr.cmapRun12] ++
  [Instr.cmapRun13, Instr.cmapRun14, Instr.cmapRun15, Instr.cmapRun16]
def varlen8Rows : List (Nat → Instr) :=
  [Instr.varlen8_n1, Instr.varlen8_n2, Instr.varlen8_n3, Instr.varlen8_n4, Instr.varlen8_n5, Instr.varlen8_n6] ++
  [Instr.varlen8_n7]
def clsymRows : List Instr :=
  [Instr.clsym_0, Instr.clsym_1, Instr.clsym_2, Instr.clsym_3, Instr.clsym_4, Instr.clsym_5] ++
  [Instr.clsym_6, Instr.clsym_7, Instr.clsym_8, Instr.clsym_9, Instr.clsym_10, Instr.clsym_11] ++
  [Instr.clsym_12, Instr.clsym_13, Instr.clsym_14, Instr.clsym_15]
def cmdRows : List (Nat → Instr) :=
  [Instr.cmdCell0, Instr.cmdCell1, Instr.cmdCell2, Instr.cmdCell3, Instr.cmdCell4, Instr.cmdCell5] ++
  [Instr.cmdCell6, Instr.cmdCell7, Instr.cmdCell8, Instr.cmdCell9, Instr.cmdCell10]
def distShortRows : List Instr :=
  [Instr.distShort0, Instr.distShort1, Instr.distShort2, Instr.distShort3, Instr.distShort4, Instr.distShort5] ++
  [Instr.distShort6, Instr.distShort7, Instr.distShort8, Instr.distShort9, Instr.distShort10, Instr.distShort11] ++
  [Instr.distShort12, Instr.distShort13, Instr.distShort14, Instr.distShort15]
def transformRows : List Instr :=
  [Instr.transform0, Instr.transform1, Instr.transform2, Instr.transform3, Instr.transform4, Instr.transform5] ++
  [Instr.transform6, Instr.transform7, Instr.transform8, Instr.transform9, Instr.transform10, Instr.transform11] ++
  [Instr.transform12, Instr.transform13, Instr.transform14, Instr.transform15, Instr.transform16, Instr.transform17] ++
  [Instr.transform18, Instr.transform19, Instr.transform20, Instr.transform21, Instr.transform22, Instr.transform23] ++
  [Instr.transform24, Instr.transform25, Instr.transform26, Instr.transform27, Instr.transform28, Instr.transform29] ++
  [Instr.transform30, Instr.transform31, Instr.transform32, Instr.transform33, Instr.transform34, Instr.transform35] ++
  [Instr.transform36, Instr.transform37, Instr.transform38, Instr.transform39, Instr.transform40, Instr.transform41] ++
  [Instr.transform42, Instr.transform43, Instr.transform44, Instr.transform45, Instr.transform46, Instr.transform47] ++
  [Instr.transform48, Instr.transform49, Instr.transform50, Instr.transform51, Instr.transform52, Instr.transform53] ++
  [Instr.transform54, Instr.transform55, Instr.transform56, Instr.transform57, Instr.transform58, Instr.transform59] ++
  [Instr.transform60, Instr.transform61, Instr.transform62, Instr.transform63, Instr.transform64, Instr.transform65] ++
  [Instr.transform66, Instr.transform67, Instr.transform68, Instr.transform69, Instr.transform70, Instr.transform71] ++
  [Instr.transform72, Instr.transform73, Instr.transform74, Instr.transform75, Instr.transform76, Instr.transform77] ++
  [Instr.transform78, Instr.transform79, Instr.transform80, Instr.transform81, Instr.transform82, Instr.transform83] ++
  [Instr.transform84, Instr.transform85, Instr.transform86, Instr.transform87, Instr.transform88, Instr.transform89] ++
  [Instr.transform90, Instr.transform91, Instr.transform92, Instr.transform93, Instr.transform94, Instr.transform95] ++
  [Instr.transform96, Instr.transform97, Instr.transform98, Instr.transform99, Instr.transform100, Instr.transform101] ++
  [Instr.transform102, Instr.transform103, Instr.transform104, Instr.transform105, Instr.transform106, Instr.transform107] ++
  [Instr.transform108, Instr.transform109, Instr.transform110, Instr.transform111, Instr.transform112, Instr.transform113] ++
  [Instr.transform114, Instr.transform115, Instr.transform116, Instr.transform117, Instr.transform118, Instr.transform119] ++
  [Instr.transform120]

/-- Block-length code `c` with extra bits `x` (R239). -/
def blenInstr (c x : Nat) : Option Instr := blenRows[c]?.map fun row => row x

/-- Insert-length code with its extra bits (R281). -/
def inslenInstr (c x : Nat) : Option Instr := inslenRows[c]?.map fun row => row x

/-- Copy-length code with its extra bits (R282). -/
def copylenInstr (c x : Nat) : Option Instr := copylenRows[c]?.map fun row => row x

/-- Zero run of a context map with its extra bits: symbols 1 to 16 (R254). -/
def cmapRunInstr (c x : Nat) : Option Instr := if c = 0 then none else cmapRunRows[c - 1]?.map fun row => row x

/-- `varlen8` with `n` extra bits, 1 to 7 (R116). -/
def varlen8Instr (n x : Nat) : Option Instr := if n = 0 then none else varlen8Rows[n - 1]?.map fun row => row x

/-- Code-length symbols 0 to 15 (R198). -/
def clsymInstr (c : Nat) : Option Instr := clsymRows[c]?

/-- A command symbol, by its cell (R280). -/
def cmdInstr (sym : Nat) : Option Instr := cmdRows[sym / 64]?.map fun row => row sym

/-- Distance short codes 0 to 15 (R303). -/
def distShortInstr (s : Nat) : Option Instr := distShortRows[s]?

/-- Transforms 0 to 120 (R360). -/
def transformInstr (n : Nat) : Option Instr := transformRows[n]?

/-- The command of code `c` with its operand (R400). -/
def hostInstr (c : Nat) (source : List SourceAnswer) (chunk : List Byte) (cap : Nat) : Option Instr :=
  match c with
  | 0 => some Instr.reset
  | 1 => some (Instr.init source)
  | 2 => some Instr.enableLargeWindow
  | 3 => some Instr.enableEagerOutput
  | 4 => some (Instr.attachDictionaryChunk chunk)
  | 5 => some (Instr.decompress cap)
  | 6 => some Instr.close
  | _ => none

/-- `CL_VLC[p]` (R197): bits consumed and row. -/
def cllenRow (p : Nat) : Nat × Instr :=
  match p % 4 with
  | 0 => (2, Instr.cllen_0)
  | 1 => (2, Instr.cllen_4)
  | 2 => (2, Instr.cllen_3)
  | _ => if p % 8 = 3 then (3, Instr.cllen_2) else if p % 16 = 7 then (4, Instr.cllen_1) else (4, Instr.cllen_5)

/-- `abits(a)` (R118): the bits needed to write `a - 1`. -/
def abits (a : Nat) : Nat := if a ≤ 1 then 0 else (a - 1).log2 + 1

/-- Extra bits of long distance symbol `sym` (R154, R306). -/
def distExtraBits (npostfix ndirect sym : Nat) : Nat := 1 + (sym - ndirect - 16) >>> (npostfix + 1)

/-! ## The decoder -/

/-- Read the element `c` from the bits `w`: each field is asked for only when the fields before it call for it, in the
order of the grammar (R110, R460). -/
def decode (c : Ctx) (w : Window) : Read :=
  match c with
  | .hostCommand source chunk cap => w.bits 0 3 fun code =>
    match hostInstr code source chunk cap with
    | none => .bad .badCommand
    | some i => .ok i 3
  | .streamHeader largeWindow => w.bits 0 1 fun first =>
    if first = 0 then .ok Instr.wbits16 1
    else w.bits 1 3 fun n =>
      if n ≠ 0 then .ofOption (wbitsInstr (17 + n)) 4
      else w.bits 4 3 fun m =>
        if m = 0 then .ok Instr.wbits17 7
        else if m = 1 then
          if largeWindow then w.bits 7 1 fun reserved =>
            if reserved = 1 then .bad (.error .corruptWindowBits)
            else w.bits 8 6 fun lwbits => .ok (Instr.wbitsLarge lwbits) 14
          else .ok Instr.wbitsReserved 7
        else .ofOption (wbitsInstr (8 + m)) 7
  | .isLast => w.bits 0 1 fun a => .ok (Instr.islast (a = 1)) 1
  | .isLastEmpty => w.bits 0 1 fun a => .ok (Instr.islastempty (a = 1)) 1
  | .mnibbles => w.bits 0 2 fun n =>
    match n with
    | 0 => .ok Instr.mnibbles_0 2
    | 1 => .ok Instr.mnibbles_1 2
    | 2 => .ok Instr.mnibbles_2 2
    | _ => .ok Instr.mnibbles_3 2
  | .mlen nibbles =>
    match nibbles with
    | 4 => w.bits 0 16 fun m => .ok (Instr.mlenm1_4n m) 16
    | 5 => w.bits 0 20 fun m => .ok (Instr.mlenm1_5n m) 20
    | 6 => w.bits 0 24 fun m => .ok (Instr.mlenm1_6n m) 24
    | _ => .bad .tableHole
  | .isUncompressed => w.bits 0 1 fun a => .ok (Instr.isuncompressed (a = 1)) 1
  | .reserved => w.bits 0 1 fun a => if a = 0 then .ok Instr.reserved 1 else .bad (.error .corruptMetablockLength)
  | .mskipbytes => w.bits 0 2 fun n =>
    match n with
    | 0 => .ok Instr.mskipbytes_0 2
    | 1 => .ok Instr.mskipbytes_1 2
    | 2 => .ok Instr.mskipbytes_2 2
    | _ => .ok Instr.mskipbytes_3 2
  | .mskiplen bytes =>
    match bytes with
    | 1 => w.bits 0 8 fun k => .ok (Instr.mskiplenm1_1b k) 8
    | 2 => w.bits 0 16 fun k => .ok (Instr.mskiplenm1_2b k) 16
    | 3 => w.bits 0 24 fun k => .ok (Instr.mskiplenm1_3b k) 24
    | _ => .bad .tableHole
  | .pad width => w.bits 0 width fun v => if v = 0 then .ok (Instr.pad width) width else .bad (.error .corruptPadding)
  | .finalPad width => w.bits 0 width fun v =>
    if v = 0 then .ok (Instr.finalpad width) width else .bad (.error .corruptPadding)
  | .raw => w.bits 0 8 fun b => .ok (Instr.raw (BitVec.ofNat 8 b)) 8
  | .skip => w.bits 0 8 fun b => .ok (Instr.skip (BitVec.ofNat 8 b)) 8
  | .varlen8 => w.bits 0 1 fun first =>
    if first = 0 then .ok Instr.varlen8_1 1
    else w.bits 1 3 fun n =>
      if n = 0 then .ok Instr.varlen8_2 4 else w.bits 4 n fun x => .ofOption (varlen8Instr n x) (4 + n)
  | .nbltypes v => .ok (Instr.nbltypes v) 0
  | .ntrees v => .ok (Instr.ntrees v) 0
  | .npostfix => w.bits 0 2 fun p => .ok (Instr.npostfix p) 2
  | .ndirecthi => w.bits 0 4 fun d => .ok (Instr.ndirecthi d) 4
  | .cmode => w.bits 0 2 fun n =>
    match n with
    | 0 => .ok Instr.cmodeLsb6 2
    | 1 => .ok Instr.cmodeMsb6 2
    | 2 => .ok Instr.cmodeUtf8 2
    | _ => .ok Instr.cmodeSigned 2
  | .rlemaxflag => w.bits 0 1 fun a => .ok (Instr.rlemaxflag (a = 1)) 1
  | .rlemaxm1 => w.bits 0 4 fun r => .ok (Instr.rlemaxm1 r) 4
  | .cmap T rleMax => w.sym 0 T fun s n =>
    if s = 0 then .ok Instr.cmapZero n
    else if s ≤ rleMax then w.bits n s fun x => .ofOption (cmapRunInstr s x) (n + s)
    else .ok (Instr.cmapValue s) n
  | .imtf => w.bits 0 1 fun a => .ok (Instr.imtf (a = 1)) 1
  | .hskip => w.bits 0 2 fun n =>
    match n with
    | 0 => .ok Instr.hskip_0 2
    | 1 => .ok Instr.hskip_1 2
    | 2 => .ok Instr.hskip_2 2
    | _ => .ok Instr.hskip_3 2
  | .nsymm1 => w.bits 0 2 fun n =>
    match n with
    | 0 => .ok Instr.nsymm1_0 2
    | 1 => .ok Instr.nsymm1_1 2
    | 2 => .ok Instr.nsymm1_2 2
    | _ => .ok Instr.nsymm1_3 2
  | .symbol width => w.bits 0 width fun s => .ok (Instr.symbol s) width
  | .treeselect => w.bits 0 1 fun a => .ok (Instr.treeselect (a = 1)) 1
  | .cllen =>
    -- `PeekBits(4)` then `DropBits(n)` (R196): the peek reads zeros past the end of the stream
    if w.avail < 4 ∧ w.eof = false then .need
    else if (cllenRow (w.field 0 4)).1 ≤ w.avail then .ok (cllenRow (w.field 0 4)).2 (cllenRow (w.field 0 4)).1
    else .bad (.error .unexpectedEOF)
  | .clsym T => w.sym 0 T fun s n =>
    if s = 16 then w.bits n 2 fun x => .ok (Instr.clsym_16 x) (n + 2)
    else if s = 17 then w.bits n 3 fun x => .ok (Instr.clsym_17 x) (n + 3)
    else .ofOption (clsymInstr s) n
  | .btype T => w.sym 0 T fun s n =>
    match s with
    | 0 => .ok Instr.btypePrev n
    | 1 => .ok Instr.btypeNext n
    | _ => .ok (Instr.btypeAbs s) n
  | .blen T => w.sym 0 T fun s n =>
    w.bits n (tableAt blenXbits s) fun x => .ofOption (blenInstr s x) (n + tableAt blenXbits s)
  | .cmd T => w.sym 0 T fun s n => .ofOption (cmdInstr s) n
  | .insLen code =>
    w.bits 0 (tableAt insXbits code) fun x => .ofOption (inslenInstr code x) (tableAt insXbits code)
  | .copyLen code =>
    w.bits 0 (tableAt copyXbits code) fun x => .ofOption (copylenInstr code x) (tableAt copyXbits code)
  | .lit T => w.sym 0 T fun s n => if s < 256 then .ok (Instr.lit (BitVec.ofNat 8 s)) n else .bad .tableHole
  | .distImplicit => .ok Instr.distImplicit 0
  | .dist T npostfix ndirect => w.sym 0 T fun s n =>
    if s < 16 then .ofOption (distShortInstr s) n
    else if s < 16 + ndirect then .ok (Instr.distDirect s) n
    else w.bits n (distExtraBits npostfix ndirect s) fun x =>
      .ok (Instr.distLong s x) (n + distExtraBits npostfix ndirect s)
  | .transform n => .ofOption (transformInstr n) 0

/-! ## The encoder -/

/-- The row's number within its family: the coded symbol or code, or the width it names. One arm per constructor. -/
def Instr.number (i : Instr) : Nat :=
  match i with
  | .wbits16 => 16
  | .wbits18 => 18
  | .wbits19 => 19
  | .wbits20 => 20
  | .wbits21 => 21
  | .wbits22 => 22
  | .wbits23 => 23
  | .wbits24 => 24
  | .wbits17 => 17
  | .wbits10 => 10
  | .wbits11 => 11
  | .wbits12 => 12
  | .wbits13 => 13
  | .wbits14 => 14
  | .wbits15 => 15
  | .wbitsLarge _ => 0
  | .wbitsReserved => 0
  | .islast _ => 0
  | .islastempty _ => 0
  | .mnibbles_0 => 0
  | .mnibbles_1 => 1
  | .mnibbles_2 => 2
  | .mnibbles_3 => 3
  | .mlenm1_4n _ => 0
  | .mlenm1_5n _ => 0
  | .mlenm1_6n _ => 0
  | .isuncompressed _ => 0
  | .reserved => 0
  | .mskipbytes_0 => 0
  | .mskipbytes_1 => 1
  | .mskipbytes_2 => 2
  | .mskipbytes_3 => 3
  | .mskiplenm1_1b _ => 0
  | .mskiplenm1_2b _ => 0
  | .mskiplenm1_3b _ => 0
  | .pad _ => 0
  | .raw _ => 0
  | .skip _ => 0
  | .finalpad _ => 0
  | .varlen8_1 => 0
  | .varlen8_2 => 0
  | .varlen8_n1 _ => 1
  | .varlen8_n2 _ => 2
  | .varlen8_n3 _ => 3
  | .varlen8_n4 _ => 4
  | .varlen8_n5 _ => 5
  | .varlen8_n6 _ => 6
  | .varlen8_n7 _ => 7
  | .nbltypes _ => 0
  | .ntrees _ => 0
  | .npostfix _ => 0
  | .ndirecthi _ => 0
  | .cmodeLsb6 => 0
  | .cmodeMsb6 => 1
  | .cmodeUtf8 => 2
  | .cmodeSigned => 3
  | .rlemaxflag _ => 0
  | .rlemaxm1 _ => 0
  | .cmapZero => 0
  | .cmapRun1 _ => 1
  | .cmapRun2 _ => 2
  | .cmapRun3 _ => 3
  | .cmapRun4 _ => 4
  | .cmapRun5 _ => 5
  | .cmapRun6 _ => 6
  | .cmapRun7 _ => 7
  | .cmapRun8 _ => 8
  | .cmapRun9 _ => 9
  | .cmapRun10 _ => 10
  | .cmapRun11 _ => 11
  | .cmapRun12 _ => 12
  | .cmapRun13 _ => 13
  | .cmapRun14 _ => 14
  | .cmapRun15 _ => 15
  | .cmapRun16 _ => 16
  | .cmapValue c => c
  | .imtf _ => 0
  | .hskip_0 => 0
  | .hskip_1 => 1
  | .hskip_2 => 2
  | .hskip_3 => 3
  | .nsymm1_0 => 0
  | .nsymm1_1 => 1
  | .nsymm1_2 => 2
  | .nsymm1_3 => 3
  | .symbol _ => 0
  | .treeselect _ => 0
  | .cllen_0 => 0
  | .cllen_1 => 1
  | .cllen_2 => 2
  | .cllen_3 => 3
  | .cllen_4 => 4
  | .cllen_5 => 5
  | .clsym_0 => 0
  | .clsym_1 => 1
  | .clsym_2 => 2
  | .clsym_3 => 3
  | .clsym_4 => 4
  | .clsym_5 => 5
  | .clsym_6 => 6
  | .clsym_7 => 7
  | .clsym_8 => 8
  | .clsym_9 => 9
  | .clsym_10 => 10
  | .clsym_11 => 11
  | .clsym_12 => 12
  | .clsym_13 => 13
  | .clsym_14 => 14
  | .clsym_15 => 15
  | .clsym_16 _ => 16
  | .clsym_17 _ => 17
  | .btypePrev => 0
  | .btypeNext => 1
  | .btypeAbs t => t
  | .blen_0 _ => 0
  | .blen_1 _ => 1
  | .blen_2 _ => 2
  | .blen_3 _ => 3
  | .blen_4 _ => 4
  | .blen_5 _ => 5
  | .blen_6 _ => 6
  | .blen_7 _ => 7
  | .blen_8 _ => 8
  | .blen_9 _ => 9
  | .blen_10 _ => 10
  | .blen_11 _ => 11
  | .blen_12 _ => 12
  | .blen_13 _ => 13
  | .blen_14 _ => 14
  | .blen_15 _ => 15
  | .blen_16 _ => 16
  | .blen_17 _ => 17
  | .blen_18 _ => 18
  | .blen_19 _ => 19
  | .blen_20 _ => 20
  | .blen_21 _ => 21
  | .blen_22 _ => 22
  | .blen_23 _ => 23
  | .blen_24 _ => 24
  | .blen_25 _ => 25
  | .cmdCell0 sym => sym
  | .cmdCell1 sym => sym
  | .cmdCell2 sym => sym
  | .cmdCell3 sym => sym
  | .cmdCell4 sym => sym
  | .cmdCell5 sym => sym
  | .cmdCell6 sym => sym
  | .cmdCell7 sym => sym
  | .cmdCell8 sym => sym
  | .cmdCell9 sym => sym
  | .cmdCell10 sym => sym
  | .inslen0 _ => 0
  | .inslen1 _ => 1
  | .inslen2 _ => 2
  | .inslen3 _ => 3
  | .inslen4 _ => 4
  | .inslen5 _ => 5
  | .inslen6 _ => 6
  | .inslen7 _ => 7
  | .inslen8 _ => 8
  | .inslen9 _ => 9
  | .inslen10 _ => 10
  | .inslen11 _ => 11
  | .inslen12 _ => 12
  | .inslen13 _ => 13
  | .inslen14 _ => 14
  | .inslen15 _ => 15
  | .inslen16 _ => 16
  | .inslen17 _ => 17
  | .inslen18 _ => 18
  | .inslen19 _ => 19
  | .inslen20 _ => 20
  | .inslen21 _ => 21
  | .inslen22 _ => 22
  | .inslen23 _ => 23
  | .copylen0 _ => 0
  | .copylen1 _ => 1
  | .copylen2 _ => 2
  | .copylen3 _ => 3
  | .copylen4 _ => 4
  | .copylen5 _ => 5
  | .copylen6 _ => 6
  | .copylen7 _ => 7
  | .copylen8 _ => 8
  | .copylen9 _ => 9
  | .copylen10 _ => 10
  | .copylen11 _ => 11
  | .copylen12 _ => 12
  | .copylen13 _ => 13
  | .copylen14 _ => 14
  | .copylen15 _ => 15
  | .copylen16 _ => 16
  | .copylen17 _ => 17
  | .copylen18 _ => 18
  | .copylen19 _ => 19
  | .copylen20 _ => 20
  | .copylen21 _ => 21
  | .copylen22 _ => 22
  | .copylen23 _ => 23
  | .lit b => b.toNat
  | .distImplicit => 0
  | .distShort0 => 0
  | .distShort1 => 1
  | .distShort2 => 2
  | .distShort3 => 3
  | .distShort4 => 4
  | .distShort5 => 5
  | .distShort6 => 6
  | .distShort7 => 7
  | .distShort8 => 8
  | .distShort9 => 9
  | .distShort10 => 10
  | .distShort11 => 11
  | .distShort12 => 12
  | .distShort13 => 13
  | .distShort14 => 14
  | .distShort15 => 15
  | .distDirect sym => sym
  | .distLong sym _ => sym
  | .transform0 => 0
  | .transform1 => 1
  | .transform2 => 2
  | .transform3 => 3
  | .transform4 => 4
  | .transform5 => 5
  | .transform6 => 6
  | .transform7 => 7
  | .transform8 => 8
  | .transform9 => 9
  | .transform10 => 10
  | .transform11 => 11
  | .transform12 => 12
  | .transform13 => 13
  | .transform14 => 14
  | .transform15 => 15
  | .transform16 => 16
  | .transform17 => 17
  | .transform18 => 18
  | .transform19 => 19
  | .transform20 => 20
  | .transform21 => 21
  | .transform22 => 22
  | .transform23 => 23
  | .transform24 => 24
  | .transform25 => 25
  | .transform26 => 26
  | .transform27 => 27
  | .transform28 => 28
  | .transform29 => 29
  | .transform30 => 30
  | .transform31 => 31
  | .transform32 => 32
  | .transform33 => 33
  | .transform34 => 34
  | .transform35 => 35
  | .transform36 => 36
  | .transform37 => 37
  | .transform38 => 38
  | .transform39 => 39
  | .transform40 => 40
  | .transform41 => 41
  | .transform42 => 42
  | .transform43 => 43
  | .transform44 => 44
  | .transform45 => 45
  | .transform46 => 46
  | .transform47 => 47
  | .transform48 => 48
  | .transform49 => 49
  | .transform50 => 50
  | .transform51 => 51
  | .transform52 => 52
  | .transform53 => 53
  | .transform54 => 54
  | .transform55 => 55
  | .transform56 => 56
  | .transform57 => 57
  | .transform58 => 58
  | .transform59 => 59
  | .transform60 => 60
  | .transform61 => 61
  | .transform62 => 62
  | .transform63 => 63
  | .transform64 => 64
  | .transform65 => 65
  | .transform66 => 66
  | .transform67 => 67
  | .transform68 => 68
  | .transform69 => 69
  | .transform70 => 70
  | .transform71 => 71
  | .transform72 => 72
  | .transform73 => 73
  | .transform74 => 74
  | .transform75 => 75
  | .transform76 => 76
  | .transform77 => 77
  | .transform78 => 78
  | .transform79 => 79
  | .transform80 => 80
  | .transform81 => 81
  | .transform82 => 82
  | .transform83 => 83
  | .transform84 => 84
  | .transform85 => 85
  | .transform86 => 86
  | .transform87 => 87
  | .transform88 => 88
  | .transform89 => 89
  | .transform90 => 90
  | .transform91 => 91
  | .transform92 => 92
  | .transform93 => 93
  | .transform94 => 94
  | .transform95 => 95
  | .transform96 => 96
  | .transform97 => 97
  | .transform98 => 98
  | .transform99 => 99
  | .transform100 => 100
  | .transform101 => 101
  | .transform102 => 102
  | .transform103 => 103
  | .transform104 => 104
  | .transform105 => 105
  | .transform106 => 106
  | .transform107 => 107
  | .transform108 => 108
  | .transform109 => 109
  | .transform110 => 110
  | .transform111 => 111
  | .transform112 => 112
  | .transform113 => 113
  | .transform114 => 114
  | .transform115 => 115
  | .transform116 => 116
  | .transform117 => 117
  | .transform118 => 118
  | .transform119 => 119
  | .transform120 => 120
  | .reset => 0
  | .init _ => 0
  | .enableLargeWindow => 0
  | .enableEagerOutput => 0
  | .attachDictionaryChunk _ => 0
  | .decompress _ => 0
  | .close => 0

/-- The value of the row's operand field (the extra bits where the row has a symbol too). One arm per constructor. -/
def Instr.operand (i : Instr) : Nat :=
  match i with
  | .wbits16 => 0
  | .wbits18 => 0
  | .wbits19 => 0
  | .wbits20 => 0
  | .wbits21 => 0
  | .wbits22 => 0
  | .wbits23 => 0
  | .wbits24 => 0
  | .wbits17 => 0
  | .wbits10 => 0
  | .wbits11 => 0
  | .wbits12 => 0
  | .wbits13 => 0
  | .wbits14 => 0
  | .wbits15 => 0
  | .wbitsLarge w => w
  | .wbitsReserved => 0
  | .islast a => a.toNat
  | .islastempty a => a.toNat
  | .mnibbles_0 => 0
  | .mnibbles_1 => 0
  | .mnibbles_2 => 0
  | .mnibbles_3 => 0
  | .mlenm1_4n m => m
  | .mlenm1_5n m => m
  | .mlenm1_6n m => m
  | .isuncompressed a => a.toNat
  | .reserved => 0
  | .mskipbytes_0 => 0
  | .mskipbytes_1 => 0
  | .mskipbytes_2 => 0
  | .mskipbytes_3 => 0
  | .mskiplenm1_1b k => k
  | .mskiplenm1_2b k => k
  | .mskiplenm1_3b k => k
  | .pad n => n
  | .raw b => b.toNat
  | .skip b => b.toNat
  | .finalpad n => n
  | .varlen8_1 => 0
  | .varlen8_2 => 0
  | .varlen8_n1 x => x
  | .varlen8_n2 x => x
  | .varlen8_n3 x => x
  | .varlen8_n4 x => x
  | .varlen8_n5 x => x
  | .varlen8_n6 x => x
  | .varlen8_n7 x => x
  | .nbltypes v => v
  | .ntrees v => v
  | .npostfix p => p
  | .ndirecthi d => d
  | .cmodeLsb6 => 0
  | .cmodeMsb6 => 0
  | .cmodeUtf8 => 0
  | .cmodeSigned => 0
  | .rlemaxflag a => a.toNat
  | .rlemaxm1 r => r
  | .cmapZero => 0
  | .cmapRun1 x => x
  | .cmapRun2 x => x
  | .cmapRun3 x => x
  | .cmapRun4 x => x
  | .cmapRun5 x => x
  | .cmapRun6 x => x
  | .cmapRun7 x => x
  | .cmapRun8 x => x
  | .cmapRun9 x => x
  | .cmapRun10 x => x
  | .cmapRun11 x => x
  | .cmapRun12 x => x
  | .cmapRun13 x => x
  | .cmapRun14 x => x
  | .cmapRun15 x => x
  | .cmapRun16 x => x
  | .cmapValue _ => 0
  | .imtf a => a.toNat
  | .hskip_0 => 0
  | .hskip_1 => 0
  | .hskip_2 => 0
  | .hskip_3 => 0
  | .nsymm1_0 => 0
  | .nsymm1_1 => 0
  | .nsymm1_2 => 0
  | .nsymm1_3 => 0
  | .symbol s => s
  | .treeselect a => a.toNat
  | .cllen_0 => 0
  | .cllen_1 => 0
  | .cllen_2 => 0
  | .cllen_3 => 0
  | .cllen_4 => 0
  | .cllen_5 => 0
  | .clsym_0 => 0
  | .clsym_1 => 0
  | .clsym_2 => 0
  | .clsym_3 => 0
  | .clsym_4 => 0
  | .clsym_5 => 0
  | .clsym_6 => 0
  | .clsym_7 => 0
  | .clsym_8 => 0
  | .clsym_9 => 0
  | .clsym_10 => 0
  | .clsym_11 => 0
  | .clsym_12 => 0
  | .clsym_13 => 0
  | .clsym_14 => 0
  | .clsym_15 => 0
  | .clsym_16 x => x
  | .clsym_17 x => x
  | .btypePrev => 0
  | .btypeNext => 0
  | .btypeAbs _ => 0
  | .blen_0 x => x
  | .blen_1 x => x
  | .blen_2 x => x
  | .blen_3 x => x
  | .blen_4 x => x
  | .blen_5 x => x
  | .blen_6 x => x
  | .blen_7 x => x
  | .blen_8 x => x
  | .blen_9 x => x
  | .blen_10 x => x
  | .blen_11 x => x
  | .blen_12 x => x
  | .blen_13 x => x
  | .blen_14 x => x
  | .blen_15 x => x
  | .blen_16 x => x
  | .blen_17 x => x
  | .blen_18 x => x
  | .blen_19 x => x
  | .blen_20 x => x
  | .blen_21 x => x
  | .blen_22 x => x
  | .blen_23 x => x
  | .blen_24 x => x
  | .blen_25 x => x
  | .cmdCell0 _ => 0
  | .cmdCell1 _ => 0
  | .cmdCell2 _ => 0
  | .cmdCell3 _ => 0
  | .cmdCell4 _ => 0
  | .cmdCell5 _ => 0
  | .cmdCell6 _ => 0
  | .cmdCell7 _ => 0
  | .cmdCell8 _ => 0
  | .cmdCell9 _ => 0
  | .cmdCell10 _ => 0
  | .inslen0 i => i
  | .inslen1 i => i
  | .inslen2 i => i
  | .inslen3 i => i
  | .inslen4 i => i
  | .inslen5 i => i
  | .inslen6 i => i
  | .inslen7 i => i
  | .inslen8 i => i
  | .inslen9 i => i
  | .inslen10 i => i
  | .inslen11 i => i
  | .inslen12 i => i
  | .inslen13 i => i
  | .inslen14 i => i
  | .inslen15 i => i
  | .inslen16 i => i
  | .inslen17 i => i
  | .inslen18 i => i
  | .inslen19 i => i
  | .inslen20 i => i
  | .inslen21 i => i
  | .inslen22 i => i
  | .inslen23 i => i
  | .copylen0 c => c
  | .copylen1 c => c
  | .copylen2 c => c
  | .copylen3 c => c
  | .copylen4 c => c
  | .copylen5 c => c
  | .copylen6 c => c
  | .copylen7 c => c
  | .copylen8 c => c
  | .copylen9 c => c
  | .copylen10 c => c
  | .copylen11 c => c
  | .copylen12 c => c
  | .copylen13 c => c
  | .copylen14 c => c
  | .copylen15 c => c
  | .copylen16 c => c
  | .copylen17 c => c
  | .copylen18 c => c
  | .copylen19 c => c
  | .copylen20 c => c
  | .copylen21 c => c
  | .copylen22 c => c
  | .copylen23 c => c
  | .lit _ => 0
  | .distImplicit => 0
  | .distShort0 => 0
  | .distShort1 => 0
  | .distShort2 => 0
  | .distShort3 => 0
  | .distShort4 => 0
  | .distShort5 => 0
  | .distShort6 => 0
  | .distShort7 => 0
  | .distShort8 => 0
  | .distShort9 => 0
  | .distShort10 => 0
  | .distShort11 => 0
  | .distShort12 => 0
  | .distShort13 => 0
  | .distShort14 => 0
  | .distShort15 => 0
  | .distDirect _ => 0
  | .distLong _ x => x
  | .transform0 => 0
  | .transform1 => 0
  | .transform2 => 0
  | .transform3 => 0
  | .transform4 => 0
  | .transform5 => 0
  | .transform6 => 0
  | .transform7 => 0
  | .transform8 => 0
  | .transform9 => 0
  | .transform10 => 0
  | .transform11 => 0
  | .transform12 => 0
  | .transform13 => 0
  | .transform14 => 0
  | .transform15 => 0
  | .transform16 => 0
  | .transform17 => 0
  | .transform18 => 0
  | .transform19 => 0
  | .transform20 => 0
  | .transform21 => 0
  | .transform22 => 0
  | .transform23 => 0
  | .transform24 => 0
  | .transform25 => 0
  | .transform26 => 0
  | .transform27 => 0
  | .transform28 => 0
  | .transform29 => 0
  | .transform30 => 0
  | .transform31 => 0
  | .transform32 => 0
  | .transform33 => 0
  | .transform34 => 0
  | .transform35 => 0
  | .transform36 => 0
  | .transform37 => 0
  | .transform38 => 0
  | .transform39 => 0
  | .transform40 => 0
  | .transform41 => 0
  | .transform42 => 0
  | .transform43 => 0
  | .transform44 => 0
  | .transform45 => 0
  | .transform46 => 0
  | .transform47 => 0
  | .transform48 => 0
  | .transform49 => 0
  | .transform50 => 0
  | .transform51 => 0
  | .transform52 => 0
  | .transform53 => 0
  | .transform54 => 0
  | .transform55 => 0
  | .transform56 => 0
  | .transform57 => 0
  | .transform58 => 0
  | .transform59 => 0
  | .transform60 => 0
  | .transform61 => 0
  | .transform62 => 0
  | .transform63 => 0
  | .transform64 => 0
  | .transform65 => 0
  | .transform66 => 0
  | .transform67 => 0
  | .transform68 => 0
  | .transform69 => 0
  | .transform70 => 0
  | .transform71 => 0
  | .transform72 => 0
  | .transform73 => 0
  | .transform74 => 0
  | .transform75 => 0
  | .transform76 => 0
  | .transform77 => 0
  | .transform78 => 0
  | .transform79 => 0
  | .transform80 => 0
  | .transform81 => 0
  | .transform82 => 0
  | .transform83 => 0
  | .transform84 => 0
  | .transform85 => 0
  | .transform86 => 0
  | .transform87 => 0
  | .transform88 => 0
  | .transform89 => 0
  | .transform90 => 0
  | .transform91 => 0
  | .transform92 => 0
  | .transform93 => 0
  | .transform94 => 0
  | .transform95 => 0
  | .transform96 => 0
  | .transform97 => 0
  | .transform98 => 0
  | .transform99 => 0
  | .transform100 => 0
  | .transform101 => 0
  | .transform102 => 0
  | .transform103 => 0
  | .transform104 => 0
  | .transform105 => 0
  | .transform106 => 0
  | .transform107 => 0
  | .transform108 => 0
  | .transform109 => 0
  | .transform110 => 0
  | .transform111 => 0
  | .transform112 => 0
  | .transform113 => 0
  | .transform114 => 0
  | .transform115 => 0
  | .transform116 => 0
  | .transform117 => 0
  | .transform118 => 0
  | .transform119 => 0
  | .transform120 => 0
  | .reset => 0
  | .init _ => 0
  | .enableLargeWindow => 0
  | .enableEagerOutput => 0
  | .attachDictionaryChunk _ => 0
  | .decompress cap => cap
  | .close => 0

/-- A field of `n` bits holding `v`; none where it does not fit. -/
def fieldWord (v n : Nat) : Option (Nat × Nat) := if v < 2 ^ n then some (v, n) else none

/-- The word of symbol `s`, followed by an `n`-bit field holding `x`. -/
def symbolWord (T : HuffmanTable) (s x n : Nat) : Option (Nat × Nat) :=
  match T.word s with
  | none => none
  | some (w, len) => if x < 2 ^ n then some (w + x * 2 ^ len, len + n) else none

/-- The word `r` where `row` is the instruction `i`. -/
def whenRow (row : Option Instr) (i : Instr) (r : Option (Nat × Nat)) : Option (Nat × Nat) :=
  if row = some i then r else none

/-- The code of a host command whose operand is the one at hand (R400). -/
def hostWord (source : List SourceAnswer) (chunk : List Byte) (cap : Nat) (i : Instr) : Option (Nat × Nat) :=
  match i with
  | .reset => some (0, 3)
  | .init src => if src = source then some (1, 3) else none
  | .enableLargeWindow => some (2, 3)
  | .enableEagerOutput => some (3, 3)
  | .attachDictionaryChunk bs => if bs = chunk then some (4, 3) else none
  | .decompress n => if n = cap then some (5, 3) else none
  | .close => some (6, 3)
  | _ => none

/-- The stream header (R112, R113). -/
def streamHeaderWord (largeWindow : Bool) (i : Instr) : Option (Nat × Nat) :=
  match i with
  | .wbits16 => some (0b0, 1)
  | .wbits18 => some (0b0011, 4)
  | .wbits19 => some (0b0101, 4)
  | .wbits20 => some (0b0111, 4)
  | .wbits21 => some (0b1001, 4)
  | .wbits22 => some (0b1011, 4)
  | .wbits23 => some (0b1101, 4)
  | .wbits24 => some (0b1111, 4)
  | .wbits17 => some (0b0000001, 7)
  | .wbits10 => some (0b0100001, 7)
  | .wbits11 => some (0b0110001, 7)
  | .wbits12 => some (0b1000001, 7)
  | .wbits13 => some (0b1010001, 7)
  | .wbits14 => some (0b1100001, 7)
  | .wbits15 => some (0b1110001, 7)
  | .wbitsLarge w => if largeWindow ∧ w < 64 then some (0b0010001 + w * 256, 14) else none
  | .wbitsReserved => if largeWindow then none else some (0b0010001, 7)
  | _ => none

/-- The rows that are one fixed two-bit code each: `MNIBBLES`, `MSKIPBYTES` (R114), `CMODE` (R122), `HSKIP` (R117),
`NSYMM1` (R118); `rows` lists them by code. -/
def codeWord2 (rows : List Instr) (i : Instr) : Option (Nat × Nat) :=
  match rows with
  | [r0, r1, r2, r3] =>
    if i = r0 then some (0b00, 2) else if i = r1 then some (0b01, 2)
    else if i = r2 then some (0b10, 2) else if i = r3 then some (0b11, 2) else none
  | _ => none

/-- `varlen8` (R116). -/
def varlen8Word (i : Instr) : Option (Nat × Nat) :=
  match i with
  | .varlen8_1 => some (0b0, 1)
  | .varlen8_2 => some (0b0001, 4)
  | _ =>
    whenRow (varlen8Instr i.number i.operand) i
      (if i.operand < 2 ^ i.number ∧ i.number < 8 then some (1 + i.number * 2 + i.operand * 16, 4 + i.number)
       else none)

/-- Context-map symbols (R123). -/
def cmapWord (T : HuffmanTable) (rleMax : Nat) (i : Instr) : Option (Nat × Nat) :=
  match i with
  | .cmapZero => symbolWord T 0 0 0
  | .cmapValue s => if rleMax < s ∧ s ≠ 0 then symbolWord T s 0 0 else none
  | _ =>
    if i.number ≤ rleMax then whenRow (cmapRunInstr i.number i.operand) i (symbolWord T i.number i.operand i.number)
    else none

/-- Code-length-code lengths (R119). -/
def cllenWord (i : Instr) : Option (Nat × Nat) :=
  match i with
  | .cllen_0 => some (0b00, 2)
  | .cllen_1 => some (0b0111, 4)
  | .cllen_2 => some (0b011, 3)
  | .cllen_3 => some (0b10, 2)
  | .cllen_4 => some (0b01, 2)
  | .cllen_5 => some (0b1111, 4)
  | _ => none

/-- Code-length symbols (R120). -/
def clsymWord (T : HuffmanTable) (i : Instr) : Option (Nat × Nat) :=
  match i with
  | .clsym_16 x => symbolWord T 16 x 2
  | .clsym_17 x => symbolWord T 17 x 3
  | _ => whenRow (clsymInstr i.number) i (symbolWord T i.number 0 0)

/-- Block-type symbols (R121). -/
def btypeWord (T : HuffmanTable) (i : Instr) : Option (Nat × Nat) :=
  match i with
  | .btypePrev => symbolWord T 0 0 0
  | .btypeNext => symbolWord T 1 0 0
  | .btypeAbs s => if 2 ≤ s then symbolWord T s 0 0 else none
  | _ => none

/-- Distance symbols (R125). -/
def distWord (T : HuffmanTable) (npostfix ndirect : Nat) (i : Instr) : Option (Nat × Nat) :=
  match i with
  | .distDirect s => if 16 ≤ s ∧ s < 16 + ndirect then symbolWord T s 0 0 else none
  | .distLong s x => if 16 + ndirect ≤ s then symbolWord T s x (distExtraBits npostfix ndirect s) else none
  | _ => whenRow (distShortInstr i.number) i (symbolWord T i.number 0 0)

/-- The bits of instruction `i` as the element `c`: the field's value, first stream bit least significant, and its
length; none where `c` has no such row. -/
def encode (c : Ctx) (i : Instr) : Option (Nat × Nat) :=
  match c with
  | .hostCommand source chunk cap => hostWord source chunk cap i
  | .streamHeader largeWindow => streamHeaderWord largeWindow i
  | .isLast => whenRow (some (Instr.islast (i.operand = 1))) i (fieldWord i.operand 1)
  | .isLastEmpty => whenRow (some (Instr.islastempty (i.operand = 1))) i (fieldWord i.operand 1)
  | .mnibbles => codeWord2 [Instr.mnibbles_0, Instr.mnibbles_1, Instr.mnibbles_2, Instr.mnibbles_3] i
  | .mlen nibbles =>
    match nibbles with
    | 4 => whenRow (some (Instr.mlenm1_4n i.operand)) i (fieldWord i.operand 16)
    | 5 => whenRow (some (Instr.mlenm1_5n i.operand)) i (fieldWord i.operand 20)
    | 6 => whenRow (some (Instr.mlenm1_6n i.operand)) i (fieldWord i.operand 24)
    | _ => none
  | .isUncompressed => whenRow (some (Instr.isuncompressed (i.operand = 1))) i (fieldWord i.operand 1)
  | .reserved => whenRow (some Instr.reserved) i (some (0, 1))
  | .mskipbytes => codeWord2 [Instr.mskipbytes_0, Instr.mskipbytes_1, Instr.mskipbytes_2, Instr.mskipbytes_3] i
  | .mskiplen bytes =>
    match bytes with
    | 1 => whenRow (some (Instr.mskiplenm1_1b i.operand)) i (fieldWord i.operand 8)
    | 2 => whenRow (some (Instr.mskiplenm1_2b i.operand)) i (fieldWord i.operand 16)
    | 3 => whenRow (some (Instr.mskiplenm1_3b i.operand)) i (fieldWord i.operand 24)
    | _ => none
  | .pad width => whenRow (some (Instr.pad width)) i (some (0, width))
  | .finalPad width => whenRow (some (Instr.finalpad width)) i (some (0, width))
  | .raw => whenRow (some (Instr.raw (BitVec.ofNat 8 i.operand))) i (fieldWord i.operand 8)
  | .skip => whenRow (some (Instr.skip (BitVec.ofNat 8 i.operand))) i (fieldWord i.operand 8)
  | .varlen8 => varlen8Word i
  | .nbltypes v => whenRow (some (Instr.nbltypes v)) i (some (0, 0))
  | .ntrees v => whenRow (some (Instr.ntrees v)) i (some (0, 0))
  | .npostfix => whenRow (some (Instr.npostfix i.operand)) i (fieldWord i.operand 2)
  | .ndirecthi => whenRow (some (Instr.ndirecthi i.operand)) i (fieldWord i.operand 4)
  | .cmode => codeWord2 [Instr.cmodeLsb6, Instr.cmodeMsb6, Instr.cmodeUtf8, Instr.cmodeSigned] i
  | .rlemaxflag => whenRow (some (Instr.rlemaxflag (i.operand = 1))) i (fieldWord i.operand 1)
  | .rlemaxm1 => whenRow (some (Instr.rlemaxm1 i.operand)) i (fieldWord i.operand 4)
  | .cmap T rleMax => cmapWord T rleMax i
  | .imtf => whenRow (some (Instr.imtf (i.operand = 1))) i (fieldWord i.operand 1)
  | .hskip => codeWord2 [Instr.hskip_0, Instr.hskip_1, Instr.hskip_2, Instr.hskip_3] i
  | .nsymm1 => codeWord2 [Instr.nsymm1_0, Instr.nsymm1_1, Instr.nsymm1_2, Instr.nsymm1_3] i
  | .symbol width => whenRow (some (Instr.symbol i.operand)) i (fieldWord i.operand width)
  | .treeselect => whenRow (some (Instr.treeselect (i.operand = 1))) i (fieldWord i.operand 1)
  | .cllen => cllenWord i
  | .clsym T => clsymWord T i
  | .btype T => btypeWord T i
  | .blen T =>
    whenRow (blenInstr i.number i.operand) i (symbolWord T i.number i.operand (tableAt blenXbits i.number))
  | .cmd T => whenRow (cmdInstr i.number) i (symbolWord T i.number 0 0)
  | .insLen code => whenRow (inslenInstr code i.operand) i (fieldWord i.operand (tableAt insXbits code))
  | .copyLen code => whenRow (copylenInstr code i.operand) i (fieldWord i.operand (tableAt copyXbits code))
  | .lit T => whenRow (some (Instr.lit (BitVec.ofNat 8 i.number))) i (symbolWord T i.number 0 0)
  | .distImplicit => whenRow (some Instr.distImplicit) i (some (0, 0))
  | .dist T npostfix ndirect => distWord T npostfix ndirect i
  | .transform n => whenRow (transformInstr n) i (some (0, 0))

/-! ## The table's words, out of their stream -/

/-- The elements a word of the opcode table may be when nothing says which (assumption log 13): a host command, a stream
header, a raw byte, a length field. -/
def tableContexts (nbits : Nat) : List Ctx :=
  match nbits with
  | 8 => [.hostCommand [] [] 0, .streamHeader false, .raw]
  | 16 => [.streamHeader true, .mlen 4]
  | 24 => [.mlen 5, .mlen 6]
  | _ => []

/-- The first element of `cs` of which `w` is one whole word, with the instruction. -/
def firstReading (w : Nat) : List Ctx → Option (Ctx × Instr)
  | [] => none
  | c :: cs =>
    match decode c ⟨w, 64, true⟩ with
    | .ok i n => if w < 2 ^ n then some (c, i) else firstReading w cs
    | _ => firstReading w cs

/-- The instruction the decoder reads from a word of the opcode table, numbered as the table numbers its bits. -/
def decodeTableWord (nbits w : Nat) : Option Instr := (firstReading w (tableContexts nbits)).map Prod.snd

end Sys2Proof
end

