-- ==== Sys2Proof/Machine/Internal.lean ====
section
/-! DEFINITION. The element steps that read no bit and have no row in the opcode table: between meta-blocks, the end of the
compressed header, the copy loops, delivery of output, the end of the stream (R223, R230, R231, R265, R284, R298, R325,
R340, R375, R388, R392). -/

namespace Sys2Proof.Machine

/-- The element steps without a row. -/
inductive Internal where
  | blockStart
  | endOfBlock
  | finalize
  | literalsDone
  | copy
  | useDictionary
  | compoundCopy
  | writeOutput
  | atEnd
  deriving DecidableEq, Repr

/-- BlockStart (R223). -/
def State.stepBlockStart (s : State) : State :=
  { s with
    st := if s.st.isLast then { s.st with resumeState := .finished, runningState := .writeOutput }
      else { s.st with runningState := .metablockHeader } }

/-- A meta-block whose length is exhausted (R230, R231, R284). -/
def State.stepEndOfBlock (s : State) : State := { s with st := { s.st with runningState := .blockStart } }

/-- FINALIZE (R265). -/
def State.stepFinalize (s : State) : State := { s with st := { s.st with j := 0, runningState := .mainLoop } }

/-- The literals complete the meta-block: the copy part of its last command is dropped (R298). -/
def State.stepLiteralsDone (s : State) : State := { s with st := { s.st with runningState := .mainLoop } }

/-- CopyLoop (R325). -/
def State.stepCopy (s : State) : State :=
  { s with
    st := if s.st.j = s.st.copyLength then { s.st with runningState := .mainLoop }
      else
        ({ s.st.emit (s.st.ringBack s.st.distance) with
          j := s.st.j + 1
          metaBlockLength := s.st.metaBlockLength - 1 } : DecoderState).fenceTest .copyLoop }

/-- CompoundDictionaryCopy (R375). -/
def State.stepCompoundCopy (s : State) : State :=
  { s with
    st := if s.st.cdBrCopied = s.st.cdBrLength then { s.st with runningState := .mainLoop }
      else
        (({ s.st.emit (s.st.CD.getD s.st.cdAddress 0) with
          cdBrCopied := s.st.cdBrCopied + 1
          metaBlockLength := s.st.metaBlockLength - 1
          cdBrOffset := s.st.cdBrOffset + 1 } : DecoderState).skipChunks 16).fenceTest .compoundDictionaryCopy }

/-- The `n` bytes WriteOutput delivers (R388). -/
def State.deliverable (s : State) : List Byte :=
  (s.st.H.drop s.st.flushed).take (min (s.st.pos - s.st.flushed) s.st.outCap)

/-- The delivery part of WriteOutput (R388). -/
def State.deliverOutput (s : State) : State :=
  let n := min (s.st.pos - s.st.flushed) s.st.outCap
  { s with
    st := { s.st with
      flushed := s.st.flushed + n
      outCount := s.st.outCount + n
      outCap := s.st.outCap - n }
    HOSTBUF := s.HOSTBUF ++ s.deliverable
    OUT := s.OUT ++ s.deliverable }

/-- WriteOutput (R388): deliver; then `NeedMoreOutput`, or on in `resumeState`. -/
def State.stepWriteOutput (s : State) : State :=
  let s := s.deliverOutput
  if s.st.flushed < s.st.pos then s.endCall .needMoreOutput
  else { s with st := { s.st with runningState := s.st.resumeState } }

/-- `AtEnd()` and the outcome of the Finished step (R159, R392). -/
def State.stepAtEnd (s : State) : State :=
  if s.st.bitpos < 8 * s.inLen then s.raise .excessiveTrailingInput
  else if s.srcEOF then State.endCall .done { s with st := { s.st with field := .start } }
  else s.pull

/-- The element step `op`. -/
def Internal.run (op : Internal) (s : State) : State :=
  match op with
  | .blockStart => s.stepBlockStart
  | .endOfBlock => s.stepEndOfBlock
  | .finalize => s.stepFinalize
  | .literalsDone => s.stepLiteralsDone
  | .copy => s.stepCopy
  | .useDictionary => s.useDictionary
  | .compoundCopy => s.stepCompoundCopy
  | .writeOutput => s.stepWriteOutput
  | .atEnd => s.stepAtEnd

end Sys2Proof.Machine
end

