-- ==== Sys2Proof/Machine/Fetch.lean ====
section
/-! DEFINITION. What fires next: the control position (R21, R409) selects a host command, an element step without a row, or
the row to read, with the tables and parameters its layout depends on (R110, R128, R235). -/

namespace Sys2Proof.Machine

/-- What fires next. -/
inductive Fetched where
  | idle
  | internal (op : Internal)
  | element (c : Ctx)
  | stuck (f : Fault)
  deriving DecidableEq, Repr

/-- An element read with the table at index `i` of a tree group. -/
def withTree (group : List HuffmanTable) (i : Nat) (c : HuffmanTable → Ctx) : Fetched :=
  match group[i]? with
  | none => .stuck .memRange
  | some T => .element (c T)

/-- Bits to the next byte boundary (R157). -/
def DecoderState.padWidth (st : DecoderState) : Nat := (8 - st.bitpos % 8) % 8

/-- The meta-block header's next field (R224 to R228). -/
def DecoderState.fetchHeader (st : DecoderState) : Fetched :=
  match st.field with
  | .start => .element .isLast
  | .isLastEmpty => .element .isLastEmpty
  | .mnibbles => .element .mnibbles
  | .mlen n => .element (.mlen n)
  | .isUncompressed => .element .isUncompressed
  | .reserved => .element .reserved
  | .mskipbytes => .element .mskipbytes
  | .mskiplen n => .element (.mskiplen n)
  | .pad => .element (.pad st.padWidth)
  | _ => .stuck .noElementStep

/-- The prefix-code reader's next element (R193 to R200). -/
def DecoderState.fetchPrefixCode (st : DecoderState) : Fetched :=
  match st.pcPhase with
  | .start =>
    match st.field with
    | .start => .element .hskip
    | .nsymm1 => .element .nsymm1
    | .symbol _ _ => .element (.symbol (abits st.pcAlphaMax))
    | .treeSelect _ => .element .treeselect
    | _ => .stuck .noElementStep
  | .clLengths => .element .cllen
  | .symLengths => .element (.clsym st.clTree)

/-- A partition's next element (R238). -/
def DecoderState.fetchPartition (st : DecoderState) (k : Cat) : Fetched :=
  match st.hsub, st.field with
  | 0, .start => .element .varlen8
  | 0, .varlenResult v => .element (.nbltypes v)
  | 3, .start => .element (.blen (st.blockLenTree.get k))
  | _, _ => .stuck .noElementStep

/-- A context map's next element (R251 to R257). -/
def DecoderState.fetchMap (st : DecoderState) : Fetched :=
  match st.hsub, st.field with
  | 0, .start => .element .varlen8
  | 0, .varlenResult v => .element (.ntrees v)
  | 1, .start => .element .rlemaxflag
  | 1, .rlemaxm1 => .element .rlemaxm1
  | 3, .start => .element (.cmap st.cmTree st.cmRleMax)
  | 4, .start => .element .imtf
  | _, _ => .stuck .noElementStep

/-- The compressed header's next element (R235). -/
def DecoderState.fetchHuffmanData (st : DecoderState) : Fetched :=
  if st.pcActive then st.fetchPrefixCode
  else
    match st.hphase with
    | .partL => st.fetchPartition .L
    | .partI => st.fetchPartition .I
    | .partD => st.fetchPartition .D
    | .distParams =>
      match st.field with
      | .start => .element .npostfix
      | .ndirecthi => .element .ndirecthi
      | _ => .stuck .noElementStep
    | .ctxModes => .element .cmode
    | .cmapL | .cmapD => st.fetchMap
    | .treesL | .treesI | .treesD => .stuck .noElementStep
    | .finalize => .internal .finalize

/-- The block switch of category `k` where its count is used up and the category has two types or more, else the element
`next` (R284, R290, R295, R300; R110 gives the second condition, assumption log 23). -/
def DecoderState.fetchSymbol (st : DecoderState) (k : Cat) (next : Fetched) : Fetched :=
  if st.blockLength.get k = 0 ∧ 2 ≤ st.numBlockTypes.get k then .element (.btype (st.blockTypeTree.get k)) else next

/-- MainLoop's next element (R284). -/
def DecoderState.fetchMainLoop (st : DecoderState) : Fetched :=
  match st.field with
  | .start =>
    if st.metaBlockLength = 0 then .internal .endOfBlock
    else st.fetchSymbol .I (withTree st.commandTrees st.blockType.I .cmd)
  | .blockCount _ => .element (.blen st.blockLenTree.I)
  | .insLen => .element (.insLen (insertCode st.cmdCode))
  | .copyLen => .element (.copyLen (copyCode st.cmdCode))
  | _ => .stuck .noElementStep

/-- InsertLoop's next element: a literal, then the distance (R290, R298, R300). -/
def DecoderState.fetchInsertLoop (st : DecoderState) : Fetched :=
  match st.field with
  | .start =>
    if st.j < st.insertLength then st.fetchSymbol .L (withTree st.literalTrees st.literalTreeIndex .lit)
    else if st.metaBlockLength = 0 then .internal .literalsDone
    else if st.distImplicit then .element .distImplicit
    else
      st.fetchSymbol .D
        (withTree st.distanceTrees st.distTreeIndex fun T => .dist T st.npostfix st.ndirect)
  | .blockCount _ => .element (.blen (st.blockLenTree.get st.cat))
  | _ => .stuck .noElementStep

/-- A raw byte while the meta-block has any left; the cursor is aligned (R85, R230, R231). -/
def DecoderState.fetchByte (st : DecoderState) (c : Ctx) : Fetched :=
  if st.metaBlockLength = 0 then .internal .endOfBlock
  else if st.bitpos % 8 ≠ 0 then .stuck .unaligned
  else .element c

/-- CopyLoop; its source lies in the output history (R322, R325). -/
def DecoderState.fetchCopy (st : DecoderState) : Fetched :=
  if st.j ≠ st.copyLength ∧ (st.distance = 0 ∨ st.pos < st.distance) then .stuck .memRange else .internal .copy

/-- CompoundDictionaryCopy; its source lies in CD (R372, R375). -/
def DecoderState.fetchCompound (st : DecoderState) : Fetched :=
  if st.cdBrCopied ≠ st.cdBrLength ∧ st.CD.length ≤ st.cdAddress then .stuck .memRange
  else .internal .compoundCopy

/-- UseDictionary: the transform row of a static reference, else the step without a row (R340). -/
def DecoderState.fetchDictionary (st : DecoderState) : Fetched :=
  match st.staticReference with
  | some n => .element (.transform n)
  | none => .internal .useDictionary

/-- Finished (R392). -/
def DecoderState.fetchFinished (st : DecoderState) : Fetched :=
  match st.field with
  | .start => .element (.finalPad st.padWidth)
  | .atEnd => .internal .atEnd
  | _ => .stuck .noElementStep

/-- The element step of the control position inside a `Decompress` (R409). -/
def DecoderState.fetch (st : DecoderState) : Fetched :=
  match st.runningState with
  | .initialized => .element (.streamHeader st.cfgLargeWindow)
  | .blockStart => .internal .blockStart
  | .metablockHeader => st.fetchHeader
  | .metadata => st.fetchByte .skip
  | .uncompressed => st.fetchByte .raw
  | .metablockHuffmanData => st.fetchHuffmanData
  | .mainLoop => st.fetchMainLoop
  | .insertLoop => st.fetchInsertLoop
  | .copyLoop => st.fetchCopy
  | .useDictionary => st.fetchDictionary
  | .compoundDictionaryCopy => st.fetchCompound
  | .writeOutput => .internal .writeOutput
  | .finished => st.fetchFinished
  | .uninitialized | .closed | .error _ => .stuck .noElementStep

/-- What fires next: inside a `Decompress` the engine's element step, between commands the host's next command (R11). -/
def State.fetch (s : State) : Fetched :=
  if s.inCall then s.st.fetch
  else
    match s.script with
    | [] => .idle
    | c :: _ => .element (.hostCommand c.source c.chunk c.cap)

/-- The bits element `c` is read from: the code of the host's next command, or the stream at the cursor (R72, R151). -/
def State.window (s : State) (c : Ctx) : Window :=
  match c with
  | .hostCommand _ _ _ =>
    match s.script with
    | [] => ⟨0, 0, true⟩
    | cmd :: _ => ⟨cmd.code.toNat, 3, true⟩
  | _ => ⟨streamValue s.IN s.st.bitpos, s.bitsHeld, s.srcEOF⟩

/-- Element `c` of `n` bits is taken: the command leaves the script, or the cursor moves on (R152, R400). -/
def State.take (s : State) (c : Ctx) (n : Nat) : State :=
  match c with
  | .hostCommand _ _ _ => { s with script := s.script.tail }
  | _ => s.advance n

/-- A build with look-ahead declines to begin an element step while fewer than `LOOKAHEAD_BITS` bits are held (R163).
That it declines every element step that reads a row, and no element step without one, is assumption log 12's choice. -/
def State.wantsLookahead (s : State) (c : Ctx) : Bool :=
  match c, s.st.field with
  | .hostCommand _ _ _, _ => false
  | _, .start => !s.srcEOF && decide (s.bitsHeld < s.params.lookaheadBits)
  | _, _ => false

end Sys2Proof.Machine
end

