-- ==== Sys2Proof/Machine/Step.lean ====
section
/-! DEFINITION. One step of the machine (assumption log 1), and where the next instruction's word stands (log 13). -/

namespace Sys2Proof.Machine

/-- One step: a host command, one row read from the stream, an element step without a row, or one `Pull` (R11, R12, R405).
An element step without a row is never declined for look-ahead (R6, R163; assumption log 12). Between commands with none pending
the machine stays as it is (log 18). -/
def step (s : State) : Host.Outcome State Fault Refusal :=
  match s.fetch with
  | .idle => .next s
  | .stuck f => .fault f
  | .internal op => .next (op.run s).commit
  | .element c =>
    if s.wantsLookahead c then .next s.pull
    else
      match decode c (s.window c) with
      | .need => .next s.pull
      | .bad (.error k) => .next (s.raise k)
      | .bad .tableHole => .fault .memRange
      | .bad .badCommand => .refused .illegalCommand
      | .ok i n =>
        match exec i (s.take c n) with
        | .next t => .next t.commit
        | .fault f => .fault f
        | .refused r => .refused r

/-- The registers at the control position that selects element `c`, for the elements `tableContexts` names. -/
def DecoderState.atElement (st : DecoderState) (c : Ctx) : DecoderState :=
  match c with
  | .streamHeader large => { st with runningState := .initialized, field := .start, cfgLargeWindow := large }
  | .raw => { st with runningState := .uncompressed, field := .start, metaBlockLength := max 1 st.metaBlockLength }
  | .mlen n => { st with runningState := .metablockHeader, field := .mlen n }
  | _ => st

/-- The bytes of a word, first byte least significant, followed by zero bytes. -/
def wordBytes (nbits w : Nat) : List Byte :=
  (List.range (nbits / 8)).map (fun i => BitVec.ofNat 8 (w / 256 ^ i)) ++ List.replicate 8 0

/-- `s` with the word `w` of the opcode table as what `step` reads next (assumption log 13): a host command's code at the
head of the host's commands; any other word inside a `Decompress`, in the stream at the next byte boundary, which the
cursor moves to, at the control position of the element `decodeTableWord` takes it for; the stream ends 8 zero bytes
after it. -/
def State.withFetchWord (s : State) (nbits w : Nat) : State :=
  match firstReading w (tableContexts nbits) with
  | some (.hostCommand source chunk cap, _) =>
    { s with inCall := false, script := ⟨BitVec.ofNat 3 w, source, chunk, cap⟩ :: s.script }
  | r =>
    let c := match r with
      | some (c, _) => c
      | none => .streamHeader false
    let start := (s.st.bitpos + 7) / 8
    let st := { s.st with bitpos := 8 * start }.atElement c
    let bytes := (s.IN ++ List.replicate (start - s.IN.length) 0).take start ++ wordBytes nbits w
    { s with
      st := st
      ckpt := match c with
        | .mlen _ => some { st with field := .start }
        | _ => none
      IN := bytes
      inLen := bytes.length
      srcEOF := true
      inCall := true }

end Sys2Proof.Machine
end

