-- ==== Sys2Proof/Machine/Micro.lean ====
section
/-! DEFINITION. The BitReader's hidden registers and micro-operations (10_state.md rule R46, 40_bitreader.md rule R160), as a
machine of its own that refines the window on the stream. Nothing of it is observable (R46), so `State` does not hold it
(assumption log 20). -/

namespace Sys2Proof.Machine

/-- The accumulator, its bit offset, and the bytes of the input ring from the accumulator's end on (R46). -/
structure BitReader where
  acc : BitVec 64
  bitOffset : Nat
  ring : List Byte
  deriving DecidableEq, Repr

/-- The bit reader after reset: no valid bit, an empty ring (R49, R164). -/
def BitReader.reset : BitReader := { acc := 0, bitOffset := 64, ring := [] }

/-- The number of valid bits (R160). -/
def BitReader.valid (r : BitReader) : Nat := 64 - r.bitOffset

/-- `readFewBits(n)`, `n` at most 24: the value, without refilling (R160). -/
def BitReader.readFewBits (r : BitReader) (n : Nat) : Nat × BitReader :=
  (r.acc.toNat / 2 ^ r.bitOffset % 2 ^ n, { r with bitOffset := r.bitOffset + n })

/-- A 32-bit word of the ring, earlier bytes in lower-order bits, zeros past its end (R81, R161). -/
def ringWord (bs : List Byte) : Nat := (bs.take 4).foldr (fun b v => b.toNat + 256 * v) 0

/-- `reload`: with 32 bits or more used up, the next word comes in (R160). -/
def BitReader.reload (r : BitReader) : BitReader :=
  if 32 ≤ r.bitOffset then
    { acc := BitVec.ofNat 64 (ringWord r.ring * 2 ^ 32 + r.acc.toNat / 2 ^ 32)
      bitOffset := r.bitOffset - 32
      ring := r.ring.drop 4 }
  else r

/-- A field of `n` bits, `n` at most 40: one read, or 16 bits, a refill and the rest (R153, R160). -/
def BitReader.readField (r : BitReader) (n : Nat) : Nat × BitReader :=
  if n ≤ 24 then r.readFewBits n
  else
    let lo := r.readFewBits 16
    let hi := lo.2.reload.readFewBits (n - 16)
    (hi.1 * 2 ^ 16 + lo.1, hi.2)

/-- The abstraction relation of R46: the valid bits are those of the stream `bs` from bit `bitpos` on, and the ring holds
the stream's bytes after them; past the end of the stream the valid bits are zeros (R161). -/
def BitReader.Represents (r : BitReader) (bs : List Byte) (bitpos : Nat) : Prop :=
  r.bitOffset ≤ 64 ∧ (bitpos + r.valid) % 8 = 0 ∧
  r.acc.toNat / 2 ^ r.bitOffset = streamValue bs bitpos % 2 ^ r.valid ∧
  r.ring = bs.drop ((bitpos + r.valid) / 8)

end Sys2Proof.Machine
end

