-- ==== Sys2Proof/Safety.lean ====
section
/-! DEFINITION. What claims about whole runs are stated with: the invariant of every step, the ring buffer as a mirror of
the output history, the legal transfers of the control state, and the control positions from which no step stops. -/

namespace Sys2Proof.Machine

/-! ## The invariant (R50, R389, R71) -/

/-- The states `resumeState` can hold while WriteOutput runs (R41, R385, R388). -/
def RunningState.resumable (r : RunningState) : Bool :=
  match r with
  | .insertLoop | .copyLoop | .mainLoop | .compoundDictionaryCopy | .uncompressed | .finished => true
  | _ => false

/-- The field that comes next is one that the state reads (R110, R235), with the header's kind as its fields so far give it
(R224 to R228): between element steps it is `start`. -/
def DecoderState.FieldFits (st : DecoderState) : Prop :=
  match st.field with
  | .start => True
  | .isLastEmpty => st.runningState = .metablockHeader ∧ st.isMetadata = false ∧ st.isUncompressed = false ∧ st.isLast = true
  | .mlen n =>
    st.runningState = .metablockHeader ∧ st.isMetadata = false ∧ st.isUncompressed = false ∧ (n = 4 ∨ n = 5 ∨ n = 6)
  | .mnibbles | .isUncompressed => st.runningState = .metablockHeader ∧ st.isMetadata = false ∧ st.isUncompressed = false
  | .reserved | .mskipbytes | .mskiplen _ => st.runningState = .metablockHeader ∧ st.isMetadata = true
  | .pad => st.runningState = .metablockHeader ∧ (st.isMetadata = true ∨ st.isUncompressed = true)
  | .varlenResult _ | .ndirecthi | .rlemaxm1 =>
    st.runningState = .metablockHuffmanData ∧ st.pcActive = false ∧ st.hphase ≠ .finalize
  | .nsymm1 | .symbol _ _ | .treeSelect _ => st.runningState = .metablockHuffmanData ∧ st.pcActive = true
  | .blockCount _ => st.runningState = .mainLoop ∨ st.runningState = .insertLoop
  | .insLen | .copyLen => st.runningState = .mainLoop
  | .atEnd => st.runningState = .finished

/-- What the registers satisfy in every state. -/
structure RegsInv (st : DecoderState) : Prop where
  ringBuffer : st.RB.wf
  contextModes : st.contextModes.wf
  contextMapL : st.contextMapL.wf
  contextMapD : st.contextMapD.wf
  cmMap : st.cmMap.wf
  clLengths : st.clLengths.wf
  codeLengths : st.codeLengths.wf
  produced : st.pos = st.H.length
  delivered : st.flushed ≤ st.pos
  blockBound : st.metaBlockLength ≤ 2 ^ 24
  distances : ∀ i : Fin 4, 1 ≤ st.distRing[i]
  chunks : st.cdNumChunks ≤ 15
  dictionary : st.runningState = .useDictionary → st.maxDistance < st.distance
  resume : st.runningState = .writeOutput → st.resumeState.resumable = true
  field : st.FieldFits

/-- The beginning `c` of the element step in progress, beside the registers `st` (R12): the step has so far moved the
cursor and written registers no other agent sees. -/
structure Began (c st : DecoderState) : Prop where
  regs : RegsInv c
  field : c.field = .start
  state : c.runningState = st.runningState
  history : c.H = st.H
  delivered : c.flushed = st.flushed
  written : c.outCount = st.outCount
  cursor : c.bitpos ≤ st.bitpos

/-- What a state's parts have to do with each other: the element step in progress, the stream, the output. Inside a call
the host's buffer holds the `outCount` bytes this call has written (R43, R388), so that an append to it writes at index
`outCount` (`HOSTBUF` as that list of bytes: assumption log 19). -/
structure BaseInv (s : State) : Prop where
  regs : RegsInv s.st
  began : ∀ c, s.ckpt = some c → Began c s.st
  whole : s.ckpt = none → s.st.field = .start
  idle : s.inCall = false → s.ckpt = none
  supplied : s.inLen = s.IN.length
  cursor : s.st.bitpos ≤ 8 * s.inLen
  output : s.OUT = s.st.H.take s.st.flushed
  buffer : s.inCall = true → s.HOSTBUF.length = s.st.outCount

/-- Every symbol table `T` answers is below `n` (R191). -/
def HuffmanTable.Below (T : HuffmanTable) (n : Nat) : Prop := ∀ v sym bits, T.lookup v = some (sym, bits) → sym < n

/-- The partition phase of category `k` as a number (R37). -/
def Cat.phase (k : Cat) : Nat :=
  match k with
  | .L => 0
  | .I => 1
  | .D => 2

/-- The table of the block-type symbols of category `k` has been read (R238). -/
def DecoderState.TypesRead (st : DecoderState) (k : Cat) : Prop :=
  k.phase < st.hphase.number ∨ (st.hphase.number = k.phase ∧ 2 ≤ st.hsub)

/-- The state the engine decodes in: the one WriteOutput comes back to, while it runs. -/
def DecoderState.decodingState (st : DecoderState) : RunningState :=
  if st.runningState = .writeOutput then st.resumeState else st.runningState

/-- The numbers of a category's block types: how many, which one, which one before (R27, R50). -/
structure TypesInRange (num cur prev : Nat) : Prop where
  one : 1 ≤ num
  limit : num ≤ 256
  current : cur < num
  previous : prev < max 2 num

/-- A context map under construction: the entries read are below its number of trees (R251 to R257, R255). -/
structure MapInRange (st : DecoderState) : Prop where
  one : 1 ≤ st.cmNumTrees
  limit : st.cmNumTrees ≤ 256
  size : st.cmSize = st.mapSize
  entries : ∀ i, i < st.cmIdx → i < st.cmSize → (st.cmMap.read i).toNat < st.cmNumTrees
  code : st.hsub = 2 → st.cmRleMax ≤ 16 ∧ st.pcAlphaLimit = st.cmNumTrees + st.cmRleMax
  table : st.hsub = 3 → st.cmTree.Below (st.cmNumTrees + st.cmRleMax)
  full : st.hsub = 4 → st.cmSize ≤ st.cmIdx

/-- The ranges of R50, with what they rest on: `counter`, `types`, `literalMap` and `distanceMap` are R50's own. An entry of
a context map is meaningful once the map of the current meta-block is complete (R29; assumption log 30). Within a command
step the insert length is new while `j` is old. -/
structure Ranges (st : DecoderState) : Prop where
  counter : st.field ≠ .copyLen → st.j ≤ max st.insertLength st.copyLength
  types : ∀ k, TypesInRange (st.numBlockTypes.get k) (st.blockType.get k) (st.prevBlockType.get k)
  literalMap : 5 < st.hphase.number →
    ∀ i, i < 64 * st.numBlockTypes.L → (st.contextMapL.read i).toNat < st.numLiteralTrees
  distanceMap : 6 < st.hphase.number →
    ∀ i, i < 4 * st.numBlockTypes.D → (st.contextMapD.read i).toNat < st.numDistTrees
  copying : st.decodingState = .copyLoop → st.j ≤ st.copyLength
  tables : st.decodingState = .mainLoop ∨ st.decodingState = .insertLoop ∨ st.decodingState = .copyLoop ∨
    st.decodingState = .useDictionary ∨ st.decodingState = .compoundDictionaryCopy → st.hphase = .finalize
  typeTrees : ∀ k, st.TypesRead k → 2 ≤ st.numBlockTypes.get k →
    (st.blockTypeTree.get k).Below (st.numBlockTypes.get k + 2)
  typeCode : ∀ k, st.hphase.number = k.phase → st.pcActive = true →
    2 ≤ st.hsub ∨ (st.hsub = 1 ∧ st.pcAlphaLimit = st.numBlockTypes.get k + 2)
  varlen : ∀ v, st.field = .varlenResult v → 1 ≤ v ∧ v ≤ 256
  switching : ∀ t, st.field = .blockCount t → t < st.numBlockTypes.get st.cat + 2
  mapCode : st.hphase = .cmapL ∨ st.hphase = .cmapD → st.pcActive = true → st.hsub = 2
  map : st.hphase = .cmapL ∨ st.hphase = .cmapD → 1 ≤ st.hsub → MapInRange st

/-- The same of the registers and of the beginning of the element step in progress. -/
def RangeInv (s : State) : Prop := Ranges s.st ∧ ∀ c, s.ckpt = some c → Ranges c

/-- The invariant of every step. -/
structure StateInv (s : State) : Prop where
  base : BaseInv s
  ranges : RangeInv s

/-! ## The ring buffer (R34, R382) -/

/-- `RB` holds the last `RS` bytes of the output history at their positions mod `RS`, every cell not written yet holds 0,
and before the stream header nothing has been produced. -/
structure MirrorsHistory (st : DecoderState) : Prop where
  latest : ∀ i, i < st.pos → st.pos ≤ i + st.RS → st.RB.read (i % st.RS) = st.H.getD i 0
  untouched : ∀ a, st.pos ≤ a → st.RB.read a = 0
  fresh : st.runningState = .uninitialized ∨ st.runningState = .initialized → st.H = []

/-- The same of the registers and of the beginning of the element step in progress. -/
def RingInv (s : State) : Prop :=
  MirrorsHistory s.st ∧ ∀ c, s.ckpt = some c → MirrorsHistory c

/-! ## Transfers of the control state (R41) -/

/-- The rows of R41's table: `a` the registers before the step, `b` those after it. -/
inductive Transfer (a b : DecoderState) : Prop where
  | init (h : a.runningState = .uninitialized) (h' : b.runningState = .initialized)
  | streamHeader (h : a.runningState = .initialized) (h' : b.runningState = .blockStart)
  | nextHeader (h : a.runningState = .blockStart) (h' : b.runningState = .metablockHeader) (w : a.isLast = false)
  | lastFlush (h : a.runningState = .blockStart) (h' : b.runningState = .writeOutput) (w : a.isLast = true)
      (r : b.resumeState = .finished)
  | emptyLast (h : a.runningState = .metablockHeader) (h' : b.runningState = .blockStart) (w : b.isLast = true)
  | metadata (h : a.runningState = .metablockHeader) (h' : b.runningState = .metadata) (w : b.isMetadata = true)
  | uncompressed (h : a.runningState = .metablockHeader) (h' : b.runningState = .uncompressed)
      (w : b.isUncompressed = true ∧ b.isMetadata = false)
  | compressed (h : a.runningState = .metablockHeader) (h' : b.runningState = .metablockHuffmanData)
      (w : b.isUncompressed = false ∧ b.isMetadata = false)
  | tablesRead (h : a.runningState = .metablockHuffmanData) (h' : b.runningState = .mainLoop)
      (w : a.hphase = .finalize)
  | blockDone (h : a.runningState = .mainLoop ∨ a.runningState = .uncompressed ∨ a.runningState = .metadata)
      (h' : b.runningState = .blockStart) (w : a.metaBlockLength = 0)
  | command (h : a.runningState = .mainLoop) (h' : b.runningState = .insertLoop)
  | fence (h : a.runningState = .insertLoop ∨ a.runningState = .copyLoop ∨
        a.runningState = .compoundDictionaryCopy ∨ a.runningState = .uncompressed)
      (h' : b.runningState = .writeOutput) (w : b.fence ≤ b.pos) (r : b.resumeState = a.runningState)
  | literalsOnly (h : a.runningState = .insertLoop) (h' : b.runningState = .mainLoop)
      (w : a.insertLength ≤ a.j ∧ a.metaBlockLength = 0)
  | history (h : a.runningState = .insertLoop) (h' : b.runningState = .copyLoop) (w : b.distance ≤ b.maxDistance)
  | dictionary (h : a.runningState = .insertLoop) (h' : b.runningState = .useDictionary)
      (w : b.maxDistance < b.distance)
  | copied (h : a.runningState = .copyLoop) (h' : b.runningState = .mainLoop) (w : a.j = a.copyLength)
  | compound (h : a.runningState = .useDictionary) (h' : b.runningState = .compoundDictionaryCopy)
      (w : a.dictAddress < 0)
  | word (h : a.runningState = .useDictionary) (h' : b.runningState = .mainLoop) (w : 0 ≤ a.dictAddress)
  | wordFence (h : a.runningState = .useDictionary) (h' : b.runningState = .writeOutput) (w : 0 ≤ a.dictAddress)
      (f : b.fence ≤ b.pos) (r : b.resumeState = .mainLoop)
  | compoundDone (h : a.runningState = .compoundDictionaryCopy) (h' : b.runningState = .mainLoop)
      (w : a.cdBrCopied = a.cdBrLength)
  | delivered (h : a.runningState = .writeOutput) (h' : b.runningState = a.resumeState) (w : b.flushed = b.pos)
  | error (k : ErrorKind) (h : a.runningState ≠ .closed) (h' : b.runningState = .error k)
  | close (h' : b.runningState = .closed)
  | reset (h' : b = .reset)

/-! ## Positions from which no step stops (R71, R85, R201, R409) -/

/-- A table over `n` symbols that answers every lookup with one of them (R201). -/
def HuffmanTable.Usable (T : HuffmanTable) (n : Nat) : Prop := T.Total ∧ T.lengths.length = n

/-- The switch trees of category `k` are usable where they exist (R31). -/
def DecoderState.SwitchReady (st : DecoderState) (k : Cat) : Prop :=
  2 ≤ st.numBlockTypes.get k →
    (st.blockTypeTree.get k).Total ∧ (st.blockLenTree.get k).Usable 26

/-- The tables of a compressed meta-block are in place (R30, R255). -/
structure TablesReady (st : DecoderState) : Prop where
  switches : ∀ k, st.SwitchReady k
  commands : ∀ T, st.commandTrees[st.blockType.I]? = some T → T.Usable 704
  commandTree : st.blockType.I < st.commandTrees.length
  literals : ∀ T ∈ st.literalTrees, T.Usable 256
  literalTree : st.literalTreeIndex < st.literalTrees.length
  distances : ∀ T ∈ st.distanceTrees, T.Total
  distanceTree : st.distTreeIndex < st.distanceTrees.length

/-- The field of a control position is one its state reads, and what the element needs is there (R85, R322, R375). -/
def DecoderState.Ready (st : DecoderState) : Prop :=
  match st.runningState with
  | .initialized | .blockStart | .useDictionary | .writeOutput => True
  | .metablockHeader =>
    match st.field with
    | .start | .isLastEmpty | .mnibbles | .isUncompressed | .reserved | .mskipbytes | .pad => True
    | .mlen n => n = 4 ∨ n = 5 ∨ n = 6
    | .mskiplen n => n = 1 ∨ n = 2 ∨ n = 3
    | _ => False
  | .metadata | .uncompressed => st.metaBlockLength ≠ 0 → st.bitpos % 8 = 0
  | .metablockHuffmanData =>
    if st.pcActive then
      match st.pcPhase with
      | .start =>
        match st.field with
        | .start | .nsymm1 | .symbol _ _ | .treeSelect _ => True
        | _ => False
      | .clLengths => True
      | .symLengths => st.clTree.Total
    else
      match st.hphase with
      | .partL | .partI | .partD =>
        (st.hsub = 0 ∧ (st.field = .start ∨ ∃ v, st.field = .varlenResult v)) ∨
          (st.hsub = 3 ∧ st.field = .start ∧ (st.blockLenTree.get st.cat).Usable 26)
      | .distParams => st.field = .start ∨ st.field = .ndirecthi
      | .ctxModes | .finalize => True
      | .cmapL | .cmapD =>
        (st.hsub = 0 ∧ (st.field = .start ∨ ∃ v, st.field = .varlenResult v)) ∨
          (st.hsub = 1 ∧ (st.field = .start ∨ st.field = .rlemaxm1)) ∨
          (st.hsub = 3 ∧ st.field = .start ∧ st.cmTree.Total ∧ st.cmRleMax ≤ 16) ∨
          (st.hsub = 4 ∧ st.field = .start)
      | .treesL | .treesI | .treesD => False
  | .mainLoop =>
    match st.field with
    | .start => TablesReady st
    | .blockCount _ => st.blockLenTree.I.Usable 26
    | .insLen | .copyLen => st.cmdCode < 704
    | _ => False
  | .insertLoop =>
    match st.field with
    | .start => TablesReady st
    | .blockCount _ => (st.blockLenTree.get st.cat).Usable 26
    | _ => False
  | .copyLoop => st.j ≠ st.copyLength → 1 ≤ st.distance ∧ st.distance ≤ st.pos
  | .compoundDictionaryCopy => st.cdBrCopied ≠ st.cdBrLength → st.cdAddress < st.CD.length
  | .finished => st.field = .start ∨ st.field = .atEnd
  | .uninitialized | .closed | .error _ => False

/-! ## Undelivered output, and the meta-block's length (R26, R385, R386) -/

/-- The end of the lap of the ring that holds the delivered position (R385). -/
def DecoderState.lapEnd (st : DecoderState) : Nat := (st.flushed / st.RS + 1) * st.RS

/-- What is produced stays inside the lap while bytes are emitted; a dictionary word passes its end by at most 36 bytes,
and WriteOutput, or the end of the session, comes next (R386, R387). -/
def DecoderState.Bounded (st : DecoderState) : Prop :=
  match st.runningState with
  | .writeOutput | .closed | .error _ => st.pos ≤ st.lapEnd + 36
  | _ => st.pos < st.lapEnd

def BoundedInv (s : State) : Prop := s.st.Bounded ∧ ∀ c, s.ckpt = some c → c.Bounded

/-- What a command still has to produce fits in what the meta-block still has to produce (R26, R286, R324, R373). -/
def DecoderState.Accounted (st : DecoderState) : Prop :=
  match st.decodingState with
  | .insertLoop => st.insertLength ≤ st.j + st.metaBlockLength
  | .copyLoop => st.j ≤ st.copyLength ∧ st.copyLength ≤ st.j + st.metaBlockLength
  | .compoundDictionaryCopy =>
    st.cdBrCopied ≤ st.cdBrLength ∧ st.cdBrLength ≤ st.cdBrCopied + st.metaBlockLength
  | _ => True

def AccountedInv (s : State) : Prop :=
  s.st.Accounted ∧
  ∀ c, s.ckpt = some c → c.Accounted ∧
    (c.runningState ≠ .metablockHeader → c.metaBlockLength = s.st.metaBlockLength)

/-! ## What a session does not change (R22, R25, R44) -/

/-- The configuration, the window and the compound dictionary are the same. -/
structure SameSetup (a b : DecoderState) : Prop where
  cfgLargeWindow : a.cfgLargeWindow = b.cfgLargeWindow
  cfgEager : a.cfgEager = b.cfgEager
  isLargeWindow : a.isLargeWindow = b.isLargeWindow
  windowBits : a.windowBits = b.windowBits
  maxBackwardDistance : a.maxBackwardDistance = b.maxBackwardDistance
  cdNumChunks : a.cdNumChunks = b.cdNumChunks
  cdChunkOffsets : a.cdChunkOffsets = b.cdChunkOffsets
  CD : a.CD = b.CD

def SetupInv (s : State) : Prop := ∀ c, s.ckpt = some c → SameSetup c s.st

end Sys2Proof.Machine

namespace Sys2Proof

/-- The table of an element read through one reads back every word of its code; the others read no table (R191). -/
def Ctx.TableReads (c : Ctx) : Prop :=
  match c with
  | .cmap T _ | .clsym T | .btype T | .blen T | .cmd T | .lit T | .dist T _ _ => T.Reads
  | _ => True

end Sys2Proof
end

