-- ==== Sys2Proof/Certificates/Slice0/Obligations.lean ====
section
/-! DEFINITION. The statements about the model. Each docstring names the rules of the spec it formalises; where a clause is
the model's own choice it names the assumption log's row. A statement of a row's result gives the whole next state as a
record, so it is the row's frame as well. -/

open Sys2Proof Sys2Proof.Machine

/-! ## Reset and the host commands (10_state.md, 46_session.md, 60_exceptions.md, 70_reset_and_hazards.md) -/

/-- R481: the reset values that matter to decoding. -/
def Obligations.ResetValues : Prop :=
  State.reset.st.distRing = #v[16, 15, 11, 4] ∧ State.reset.st.distRbIdx = 3 ∧
  (∀ a, State.reset.st.RB.read a = 0) ∧
  State.reset.st.pos = 0 ∧ State.reset.st.flushed = 0 ∧ State.reset.st.bitpos = 0 ∧ State.reset.inLen = 0 ∧
  State.reset.srcEOF = false ∧
  State.reset.st.cdNumChunks = 0 ∧ State.reset.st.cdTotalSize = 0 ∧
  State.reset.st.cfgLargeWindow = false ∧ State.reset.st.cfgEager = false ∧
  ∀ k, State.reset.st.numBlockTypes.get k = 1 ∧ State.reset.st.blockType.get k = 0 ∧
    State.reset.st.prevBlockType.get k = 1 ∧ State.reset.st.blockLength.get k = 0

/-- R480, R484: `Reset` in every state puts every register at its reset value and the state at Uninitialized, and leaves
the host's buffer, the build's constants and the commands still to come alone. The registers whose reset value the spec
leaves unspecified (R482) have the values of assumption log 7, the status values those of log 29. -/
def Obligations.ResetCommand : Prop :=
  ∀ s, exec .reset s = .next
    { State.reset with HOSTBUF := s.HOSTBUF, script := s.script, params := s.params, rom := s.rom }

/-- The model's invariants hold after reset. -/
def Obligations.ResetSatisfiesTheInvariants : Prop :=
  StateInv State.reset ∧ RingInv State.reset ∧ BoundedInv State.reset ∧ AccountedInv State.reset ∧ SetupInv State.reset

/-- R401: `Init` on a fresh session binds the source and changes only the state; in any other live state it raises
`DoubleInitialization`. -/
def Obligations.InitBindsTheSource : Prop :=
  (∀ src s, s.st.runningState = .uninitialized →
    exec (.init src) s = .next
      { s with st := { s.st with runningState := .initialized }, source := src, result := .ok }) ∧
  (∀ src s, 0 ≤ s.st.runningState.tag → s.st.runningState ≠ .uninitialized → s.st.runningState ≠ .closed →
    exec (.init src) s = .next
      { s with
        st := { s.base with runningState := .error .doubleInitialization, field := .start }
        ckpt := none, inCall := false, result := .error .doubleInitialization
        report := if s.inCall then some ⟨s.base.outCount, .error .doubleInitialization⟩ else s.report })

/-- R402, R403, R407, R456 (a): the two configuration flags, set in Initialized; twice is the same as once. A configuration
command in a live state other than Initialized raises `InvalidRuntimeStateTransition`. -/
def Obligations.ConfigurationCommands : Prop :=
  (∀ s : State, s.st.runningState = .initialized →
    exec .enableLargeWindow s = .next
      { s with
        st := { s.st with cfgLargeWindow := if s.params.largeWindowSupported then true else s.st.cfgLargeWindow }
        result := .ok } ∧
    exec .enableEagerOutput s = .next { s with st := { s.st with cfgEager := true }, result := .ok } ∧
    (∀ t, exec .enableLargeWindow s = .next t → exec .enableLargeWindow t = .next t) ∧
    (∀ t, exec .enableEagerOutput s = .next t → exec .enableEagerOutput t = .next t)) ∧
  ∀ (chunk : List Byte) (i : Instr) (s : State),
    i = .enableLargeWindow ∨ i = .enableEagerOutput ∨ i = .attachDictionaryChunk chunk →
    0 ≤ s.st.runningState.tag → s.st.runningState ≠ .initialized → s.st.runningState ≠ .closed →
    exec i s = .next
      { s with
        st := { s.base with runningState := .error .invalidRuntimeStateTransition, field := .start }
        ckpt := none, inCall := false, result := .error .invalidRuntimeStateTransition
        report := if s.inCall then some ⟨s.base.outCount, .error .invalidRuntimeStateTransition⟩ else s.report }

/-- R404: a chunk is appended and its end becomes the new total, earlier offsets unchanged; a 16th chunk, or one beyond
`CD_CAP`, raises `CompoundDictionaryOverflow`. -/
def Obligations.AttachDictionaryChunk : Prop :=
  ∀ chunk s, s.st.runningState = .initialized →
    (s.st.cdNumChunks = 15 ∨ s.params.cdCap < s.st.cdTotalSize + chunk.length →
      exec (.attachDictionaryChunk chunk) s = .next
        { s with
          st := { s.base with runningState := .error .compoundDictionaryOverflow, field := .start }
          ckpt := none, inCall := false, result := .error .compoundDictionaryOverflow
          report := if s.inCall then some ⟨s.base.outCount, .error .compoundDictionaryOverflow⟩ else s.report }) ∧
    (s.st.cdNumChunks < 15 → s.st.cdTotalSize + chunk.length ≤ s.params.cdCap →
      ∃ offsets : Vector Nat 16,
        exec (.attachDictionaryChunk chunk) s = .next
          { s with
            st := { s.st with
              CD := s.st.CD ++ chunk, cdNumChunks := s.st.cdNumChunks + 1, cdChunkOffsets := offsets }
            result := .ok } ∧
        offsets[s.st.cdNumChunks + 1]? = some (s.st.cdTotalSize + chunk.length) ∧
        ∀ i, i ≠ s.st.cdNumChunks + 1 → offsets[i]? = s.st.cdChunkOffsets[i]?)

/-- R405, R407: `Decompress` begins in Initialized and in every decoding state with its two registers set, and on a session
never initialised it raises `InvalidRuntimeStateTransition`. That the host's buffer is empty as the call begins is
assumption log 19's choice, the count an uninitialised session answers log 17's, which `report` keeps (R43). -/
def Obligations.DecompressBegins : Prop :=
  (∀ cap s, 0 ≤ s.st.runningState.tag → s.st.runningState ≠ .uninitialized → s.st.runningState ≠ .closed →
    exec (.decompress cap) s = .next
      { s with st := { s.st with outCap := cap, outCount := 0 }, HOSTBUF := [], inCall := true }) ∧
  (∀ cap s, s.st.runningState = .uninitialized →
    exec (.decompress cap) s = .next
      { s with
        st := { s.base with runningState := .error .invalidRuntimeStateTransition, field := .start }
        ckpt := none, inCall := false
        result := .decompressed s.base.outCount (.error .invalidRuntimeStateTransition)
        report := some ⟨s.base.outCount, .error .invalidRuntimeStateTransition⟩ })

/-- R405, R406, R407, R440, R454: `Close` closes in every state; every other command but `Reset` on a closed session answers
`AlreadyClosed`, on a failed one the stored kind, and changes no register. The status values stay those of the last
`Decompress` through every other command (R43). That a `Decompress` turned away counts as the last one, and leaves the count
0 and its error in them (`report`), is the model's choice, assumption log 29: R407 and R43 do not say it. -/
def Obligations.ClosedOrFailedSession : Prop :=
  (∀ s, exec .close s = .next { s with st := { s.st with runningState := .closed }, result := .ok }) ∧
  ∀ s k, (s.st.runningState = .closed ∧ k = .alreadyClosed ∨ s.st.runningState = .error k) →
    (∀ src, exec (.init src) s = .next { s with result := .error k }) ∧
    exec .enableLargeWindow s = .next { s with result := .error k } ∧
    exec .enableEagerOutput s = .next { s with result := .error k } ∧
    (∀ chunk, exec (.attachDictionaryChunk chunk) s = .next { s with result := .error k }) ∧
    ∀ cap, exec (.decompress cap) s = .next
      { s with result := .decompressed 0 (.error k), report := some ⟨0, .error k⟩ }

/-! ## The step and the source (00_scope.md, 40_bitreader.md) -/

/-- R11, R12, R163, R405, R409: a step runs the instruction decoded at the control position, on the state in which the
element's bits are consumed, and commits the element step when it is complete; where no row is read it runs the element step
without a row; where bits are missing it pulls; where the bits are illegal it raises the error. That one step is one row, so
that an element step is committed with its last row, is assumption log 1's choice; that a build with look-ahead pulls where
`wantsLookahead` holds, and declines no element step without a row, is log 12's, for R163 only permits it. -/
def Obligations.StepRunsTheDecodedInstruction : Prop :=
  (∀ s c i n t, s.fetch = .element c → s.wantsLookahead c = false → decode c (s.window c) = .ok i n →
    exec i (s.take c n) = .next t → step s = .next t.commit) ∧
  (∀ s op, s.fetch = .internal op → step s = .next (op.run s).commit) ∧
  (∀ s c, s.fetch = .element c → s.wantsLookahead c = true ∨ decode c (s.window c) = .need → step s = .next s.pull) ∧
  (∀ s c k, s.fetch = .element c → s.wantsLookahead c = false → decode c (s.window c) = .bad (.error k) →
    step s = .next (s.raise k))

/-- R155: the outcomes of a pull. The rest of the source's answers is the model's plain data (assumption log 3). -/
def Obligations.PullOutcomes : Prop :=
  ∀ s : State, s.srcEOF = false →
    1 ≤ s.pullMax ∧ s.pullMax ≤ Config.inBufBytes ∧
    (∀ bs rest, s.source = .bytes bs :: rest → bs ≠ [] → bs.length ≤ s.pullMax →
      s.pull = { s with IN := s.IN ++ bs, inLen := s.inLen + bs.length, source := rest }) ∧
    (∀ rest, s.source = .eof :: rest → s.pull = { s with srcEOF := true }) ∧
    (∀ rest, s.source = .noData :: rest →
      s.pull =
        { s with
          st := { s.base with field := .start }, ckpt := none, inCall := false, source := rest
          result := .decompressed s.base.outCount .needMoreInput
          report := some ⟨s.base.outCount, .needMoreInput⟩ }) ∧
    (∀ rest, s.source = .fail :: rest → s.inCall = true →
      s.pull =
        { s with
          st := { s.base with runningState := .error .readFailed, field := .start }
          ckpt := none, inCall := false, srcFail := true, source := rest
          result := .decompressed s.base.outCount (.error .readFailed)
          report := some ⟨s.base.outCount, .error .readFailed⟩ })

/-! ## Words (30_encoding.md) -/

/-- Words written out from the encodings of R112 to R119, R222 and R400. -/
def Obligations.DecodeWords : Prop :=
  decode (.streamHeader false) ⟨0b00000110, 8, false⟩ = .ok .wbits16 1 ∧
  decode (.streamHeader false) ⟨0b00001011, 8, false⟩ = .ok .wbits22 4 ∧
  decode (.streamHeader false) ⟨0b00100001, 8, false⟩ = .ok .wbits10 7 ∧
  decode (.streamHeader true) ⟨0x1E11, 16, false⟩ = .ok (.wbitsLarge 30) 14 ∧
  decode .mnibbles ⟨0b11, 8, false⟩ = .ok .mnibbles_3 2 ∧
  decode (.mlen 4) ⟨0x1234, 16, false⟩ = .ok (.mlenm1_4n 0x1234) 16 ∧
  decode .varlen8 ⟨0b1010111, 8, false⟩ = .ok (.varlen8_n3 0b101) 7 ∧
  decode .cllen ⟨0b0111, 4, false⟩ = .ok .cllen_1 4 ∧
  decode .raw ⟨0x61, 8, false⟩ = .ok (.raw 0x61) 8 ∧
  decode (.hostCommand [] [] 7) ⟨5, 3, true⟩ = .ok (.decompress 7) 3

/-- R110 to R128: decoding the word of an instruction, whatever bits follow it, gives the instruction and its length. The
table of an element read through one must read back its own code (R191). -/
def Obligations.DecodeOfEncode : Prop :=
  ∀ c i v n rest avail eof, c.TableReads → encode c i = some (v, n) → n ≤ avail → (eof = true ∨ n + 15 ≤ avail) →
    decode c ⟨v + 2 ^ n * rest, avail, eof⟩ = .ok i n

/-- Every well-formed instruction has a word, at some control position. -/
def Obligations.EveryInstructionHasAWord : Prop :=
  ∀ i : Instr, i.wellFormed = true → ∃ c v n, encode c i = some (v, n)

/-- R13, R156: what has been decoded, or rejected, does not depend on input that has not arrived: with more bits the answer
is the same. -/
def Obligations.DecodingIsStable : Prop :=
  ∀ c v avail, decode c ⟨v, avail, false⟩ ≠ .need →
    ∀ rest more eof, decode c ⟨v + 2 ^ avail * rest, avail + more, eof⟩ = decode c ⟨v, avail, false⟩

/-- R152, R156, R452: no instruction consumes a bit that has not been supplied. At the end of the stream no element waits:
what it would take with more bits and is not all there raises `UnexpectedEOF`; so does a fixed field of fewer bits than its
width, whatever they are, and a symbol whose word, read with zeros after the end, passes the end. -/
def Obligations.DecodingStaysInTheStream : Prop :=
  (∀ c w i n, decode c w = .ok i n → n ≤ w.avail) ∧
  (∀ c (w : Window), w.eof = true → decode c w ≠ .need) ∧
  (∀ c v avail more i n, decode c ⟨v, avail + more, true⟩ = .ok i n → avail < n →
    decode c ⟨v, avail, true⟩ = .bad (.error .unexpectedEOF)) ∧
  (∀ c n (w : Window),
    ((c, n) ∈ [(Ctx.isLast, 1), (.isLastEmpty, 1), (.mnibbles, 2), (.mlen 4, 16), (.mlen 5, 20), (.mlen 6, 24),
        (.isUncompressed, 1), (.reserved, 1), (.mskipbytes, 2), (.mskiplen 1, 8), (.mskiplen 2, 16), (.mskiplen 3, 24),
        (.raw, 8), (.skip, 8), (.npostfix, 2), (.ndirecthi, 4), (.cmode, 2), (.rlemaxflag, 1), (.rlemaxm1, 4), (.imtf, 1),
        (.hskip, 2), (.nsymm1, 2), (.treeselect, 1)] ∨
      c = .pad n ∨ c = .finalPad n ∨ c = .symbol n ∨
      (∃ code, c = .insLen code ∧ n = tableAt insXbits code ∨ c = .copyLen code ∧ n = tableAt copyXbits code)) →
    w.eof = true → w.avail < n → decode c w = .bad (.error .unexpectedEOF)) ∧
  ∀ c (T : HuffmanTable) s n (w : Window),
    (c = .clsym T ∨ c = .btype T ∨ c = .blen T ∨ c = .cmd T ∨ c = .lit T ∨ (∃ rleMax, c = .cmap T rleMax) ∨
      ∃ npostfix ndirect, c = .dist T npostfix ndirect) →
    T.lookup (w.field 0 15) = some (s, n) → w.eof = true → w.avail < n → decode c w = .bad (.error .unexpectedEOF)

/-! ## Headers (42_metablock.md) -/

/-- R113, R129, R220, R402, R409: in Initialized the stream header is read, the large-window one where `cfgLargeWindow` is 1:
the pattern `0010001` is no header without it, and with it a RESERVED bit of 1 raises `CorruptWindowBits`, else `LWBITS`
follows. The rows set the window; an illegal window raises `CorruptWindowBits`. -/
def Obligations.StreamHeaderRows : Prop :=
  (∀ s : State, s.inCall = true → s.st.runningState = .initialized →
    s.fetch = .element (.streamHeader s.st.cfgLargeWindow)) ∧
  (∀ w : Window,
    (7 ≤ w.avail → w.field 0 7 = 0b0010001 → decode (.streamHeader false) w = .ok .wbitsReserved 7) ∧
    (8 ≤ w.avail → w.field 0 7 = 0b0010001 → w.field 7 1 = 1 →
      decode (.streamHeader true) w = .bad (.error .corruptWindowBits)) ∧
    (14 ≤ w.avail → w.field 0 7 = 0b0010001 → w.field 7 1 = 0 →
      decode (.streamHeader true) w = .ok (.wbitsLarge (w.field 8 6)) 14)) ∧
  (∀ wb i s, wbitsInstr wb = some i →
    exec i s = .next
      { s with
        st := { s.st with
          windowBits := wb, maxBackwardDistance := 2 ^ wb - 16, runningState := .blockStart, field := .start } }) ∧
  (∀ wb s, 10 ≤ wb → wb ≤ 30 →
    exec (.wbitsLarge wb) s = .next
      { s with
        st := { s.st with
          windowBits := wb, maxBackwardDistance := 2 ^ wb - 16, isLargeWindow := true
          runningState := .blockStart, field := .start } }) ∧
  (∀ wb s, wb < 10 ∨ 30 < wb → exec (.wbitsLarge wb) s = .next (s.raise .corruptWindowBits)) ∧
  (∀ s, exec .wbitsReserved s = .next (s.raise .corruptWindowBits))

/-- R224 to R226, R228, R409, R442: which one-bit or two-bit field of a meta-block header is read at each place of it (the names of
the places are assumption log 10's), and what it does; a metadata RESERVED bit of 1 raises `CorruptMetablockLength`. -/
def Obligations.MetablockHeaderRows : Prop :=
  (∀ (s : State) f c, s.inCall = true → s.st.runningState = .metablockHeader → s.st.field = f →
    (f, c) ∈ [(Field.start, Ctx.isLast), (.isLastEmpty, .isLastEmpty), (.mnibbles, .mnibbles),
      (.isUncompressed, .isUncompressed), (.reserved, .reserved), (.mskipbytes, .mskipbytes)] → s.fetch = .element c) ∧
  (∀ w : Window, 1 ≤ w.avail →
    decode .reserved w =
      if w.field 0 1 = 0 then .ok .reserved 1 else .bad (.error .corruptMetablockLength)) ∧
  ∀ s,
    (∀ a, exec (.islast a) s = .next
      { s with
        st := { s.st with
          isLast := a, isUncompressed := false, isMetadata := false, metaBlockLength := 0
          field := if a then .isLastEmpty else .mnibbles } }) ∧
    exec (.islastempty true) s = .next { s with st := { s.st with runningState := .blockStart, field := .start } } ∧
    exec (.islastempty false) s = .next { s with st := { s.st with field := .mnibbles } } ∧
    exec .mnibbles_0 s = .next { s with st := { s.st with field := .mlen 4 } } ∧
    exec .mnibbles_1 s = .next { s with st := { s.st with field := .mlen 5 } } ∧
    exec .mnibbles_2 s = .next { s with st := { s.st with field := .mlen 6 } } ∧
    exec .mnibbles_3 s = .next { s with st := { s.st with isMetadata := true, field := .reserved } } ∧
    exec (.isuncompressed true) s = .next { s with st := { s.st with isUncompressed := true, field := .pad } } ∧
    exec (.isuncompressed false) s = .next
      { s with
        st := { s.st with
          isUncompressed := false, hphase := .partL, hsub := 0, hidx := 0, pcActive := false
          literalTrees := [], commandTrees := [], distanceTrees := []
          runningState := .metablockHuffmanData, field := .start } } ∧
    exec .reserved s = .next { s with st := { s.st with field := .mskipbytes } } ∧
    exec .mskipbytes_0 s = .next { s with st := { s.st with metaBlockLength := 0, field := .pad } } ∧
    exec .mskipbytes_1 s = .next { s with st := { s.st with field := .mskiplen 1 } } ∧
    exec .mskipbytes_2 s = .next { s with st := { s.st with field := .mskiplen 2 } } ∧
    exec .mskipbytes_3 s = .next { s with st := { s.st with field := .mskiplen 3 } }

/-- R115, R225, R226, R229, R409, R442: the length fields, each read where the field before it has put it (assumption log
10's names); one whose last nibble or byte is 0 beyond the shortest form raises `CorruptMetablockLength`; after the length of
a last meta-block the compressed header begins. -/
def Obligations.MetablockLengthRows : Prop :=
  (∀ (s : State) n, s.inCall = true → s.st.runningState = .metablockHeader →
    (s.st.field = .mlen n → s.fetch = .element (.mlen n)) ∧
    (s.st.field = .mskiplen n → s.fetch = .element (.mskiplen n))) ∧
  ∀ s m,
    (∀ i, (i = .mlenm1_4n m ∨ i = .mlenm1_5n m ∧ 2 ^ 16 ≤ m ∨ i = .mlenm1_6n m ∧ 2 ^ 20 ≤ m) →
      (s.st.isLast = false → exec i s = .next
        { s with st := { s.st with metaBlockLength := m + 1, field := .isUncompressed } }) ∧
      (s.st.isLast = true → exec i s = .next
        { s with
          st := { s.st with
            metaBlockLength := m + 1, hphase := .partL, hsub := 0, hidx := 0, pcActive := false
            literalTrees := [], commandTrees := [], distanceTrees := []
            runningState := .metablockHuffmanData, field := .start } })) ∧
    (∀ i, (i = .mskiplenm1_1b m ∨ i = .mskiplenm1_2b m ∧ 2 ^ 8 ≤ m ∨ i = .mskiplenm1_3b m ∧ 2 ^ 16 ≤ m) →
      exec i s = .next { s with st := { s.st with metaBlockLength := m + 1, field := .pad } }) ∧
    (∀ i, (i = .mlenm1_5n m ∧ m < 2 ^ 16 ∨ i = .mlenm1_6n m ∧ m < 2 ^ 20 ∨ i = .mskiplenm1_2b m ∧ m < 2 ^ 8 ∨
        i = .mskiplenm1_3b m ∧ m < 2 ^ 16) →
      exec i s = .next (s.raise .corruptMetablockLength))

/-- R157, R226, R228, R392, R409: padding is read at the end of a header with a payload and first in Finished, with the width
that reaches the next byte boundary; a padding bit that is 1 raises `CorruptPadding`; after it comes the payload, or the
end-of-stream test. -/
def Obligations.PaddingRows : Prop :=
  (∀ s : State, s.inCall = true →
    (s.st.runningState = .metablockHeader → s.st.field = .pad → s.fetch = .element (.pad s.st.padWidth)) ∧
    (s.st.runningState = .finished → s.st.field = .start → s.fetch = .element (.finalPad s.st.padWidth))) ∧
  (∀ st : DecoderState, st.padWidth < 8 ∧ (st.bitpos + st.padWidth) % 8 = 0) ∧
  (∀ (w : Window) n, n ≤ w.avail →
    decode (.pad n) w = (if w.field 0 n = 0 then .ok (.pad n) n else .bad (.error .corruptPadding)) ∧
    decode (.finalPad n) w = (if w.field 0 n = 0 then .ok (.finalpad n) n else .bad (.error .corruptPadding))) ∧
  (∀ n s, exec (.pad n) s = .next
    { s with
      st := { s.st with
        runningState := if s.st.isMetadata then .metadata else .uncompressed, field := .start } }) ∧
  ∀ n s, exec (.finalpad n) s = .next { s with st := { s.st with field := .atEnd } }

/-- R85, R230, R231, R383, R385, R409: in Uncompressed a raw byte is read, in Metadata a skipped one, while `metaBlockLength`
is not 0, the cursor being aligned there; at 0 the meta-block ends. A raw byte is emitted and counted, with the fence test; a
skipped byte is only counted. -/
def Obligations.RawAndSkippedBytes : Prop :=
  (∀ (s : State) r c, s.inCall = true → s.st.runningState = r →
    r = .uncompressed ∧ c = .raw ∨ r = .metadata ∧ c = .skip →
    (s.st.metaBlockLength ≠ 0 → s.st.bitpos % 8 = 0 → s.fetch = .element c) ∧
    (s.st.metaBlockLength = 0 → s.fetch = .internal .endOfBlock)) ∧
  ∀ b s,
    exec (.raw b) s = .next
      { s with
        st := { s.st with
          RB := s.st.RB.write (s.st.pos % s.st.RS) b, H := s.st.H ++ [b], pos := s.st.pos + 1
          metaBlockLength := s.st.metaBlockLength - 1, field := .start
          resumeState := if s.st.fence ≤ s.st.pos + 1 then .uncompressed else s.st.resumeState
          runningState := if s.st.fence ≤ s.st.pos + 1 then .writeOutput else .uncompressed } } ∧
    exec (.skip b) s = .next
      { s with st := { s.st with metaBlockLength := s.st.metaBlockLength - 1, field := .start } }

/-- R235, R237, R238, R250, R251, R258: at the beginning of a partition or a context map `varlen8` is read, then the row that
uses it (rows of their own and the names of their places: assumption logs 2 and 10), and what they do. One block type ends the partition with a count of
2^24; one tree makes the map zero (`cmMap`, the map being read, assumption log 22), stores it and ends it; otherwise the next
code or field follows. That `pcActive` becomes 1 in the row before a code is assumption log 27's choice. -/
def Obligations.PartitionRows : Prop :=
  (∀ (s : State) c, s.inCall = true → s.st.runningState = .metablockHuffmanData → s.st.pcActive = false → s.st.hsub = 0 →
    ((s.st.hphase = .partL ∨ s.st.hphase = .partI ∨ s.st.hphase = .partD) ∧ c = Ctx.nbltypes ∨
      (s.st.hphase = .cmapL ∨ s.st.hphase = .cmapD) ∧ c = Ctx.ntrees) →
    (s.st.field = .start → s.fetch = .element .varlen8) ∧
    ∀ v, s.st.field = .varlenResult v → s.fetch = .element (c v)) ∧
  (∀ s, exec .varlen8_1 s = .next { s with st := { s.st with field := .varlenResult 1 } }) ∧
  (∀ s, exec .varlen8_2 s = .next { s with st := { s.st with field := .varlenResult 2 } }) ∧
  (∀ n x i s, varlen8Instr n x = some i →
    exec i s = .next { s with st := { s.st with field := .varlenResult (2 ^ n + 1 + x) } }) ∧
  (∀ s, exec (.nbltypes 1) s = .next
    { s with
      st := { s.st with
        numBlockTypes := s.st.numBlockTypes.set s.st.cat 1
        blockType := s.st.blockType.set s.st.cat 0
        prevBlockType := s.st.prevBlockType.set s.st.cat 1
        blockLength := s.st.blockLength.set s.st.cat (2 ^ 24)
        field := .start
        hphase := match s.st.cat with | .L => .partI | .I => .partD | .D => .distParams
        hsub := 0, hidx := 0, pcActive := false } }) ∧
  (∀ v s, v ≠ 1 → exec (.nbltypes v) s = .next
    { s with
      st := { s.st with
        numBlockTypes := s.st.numBlockTypes.set s.st.cat v
        blockType := s.st.blockType.set s.st.cat 0
        prevBlockType := s.st.prevBlockType.set s.st.cat 1
        field := .start, hsub := 1
        pcActive := true, pcPhase := .start, pcAlphaMax := v + 2, pcAlphaLimit := v + 2 } }) ∧
  (∀ s, s.st.hphase = .cmapL → exec (.ntrees 1) s = .next
    { s with
      st := { s.st with
        cmNumTrees := 1, cmSize := 64 * s.st.numBlockTypes.L, cmIdx := 0, field := .start
        cmMap := s.st.cmMap.fill 0 (64 * s.st.numBlockTypes.L) 0
        contextMapL := s.st.contextMapL.writeAll 0
          ((s.st.cmMap.fill 0 (64 * s.st.numBlockTypes.L) 0).toBytes (64 * s.st.numBlockTypes.L))
        numLiteralTrees := 1
        hphase := .cmapD, hsub := 0, hidx := 0, pcActive := false } }) ∧
  (∀ s, s.st.hphase = .cmapD → exec (.ntrees 1) s = .next
    { s with
      st := { s.st with
        cmNumTrees := 1, cmSize := 4 * s.st.numBlockTypes.D, cmIdx := 0, field := .start
        cmMap := s.st.cmMap.fill 0 (4 * s.st.numBlockTypes.D) 0
        contextMapD := s.st.contextMapD.writeAll 0
          ((s.st.cmMap.fill 0 (4 * s.st.numBlockTypes.D) 0).toBytes (4 * s.st.numBlockTypes.D))
        numDistTrees := 1
        hphase := .treesL, hsub := 0, hidx := 0
        pcActive := true, pcPhase := .start, pcAlphaMax := 256, pcAlphaLimit := 256 } }) ∧
  (∀ s t, s.st.cmMap.wf → s.st.contextMapL.wf → s.st.contextMapD.wf → exec (.ntrees 1) s = .next t →
    (s.st.hphase = .cmapL →
      ∀ i, t.st.contextMapL.read i = if i < 64 * s.st.numBlockTypes.L then 0 else s.st.contextMapL.read i) ∧
    (s.st.hphase = .cmapD →
      ∀ i, t.st.contextMapD.read i = if i < 4 * s.st.numBlockTypes.D then 0 else s.st.contextMapD.read i)) ∧
  (∀ v s, v ≠ 1 → exec (.ntrees v) s = .next
    { s with
      st := { s.st with
        cmNumTrees := v
        cmSize := if s.st.hphase = .cmapL then 64 * s.st.numBlockTypes.L else 4 * s.st.numBlockTypes.D
        cmIdx := 0, field := .start, hsub := 1 } })

/-- R235, R242, R262: phase DIST_PARAMS reads `NPOSTFIX`, then the high part of `NDIRECT`; the distance parameters and the two
alphabet sizes, which never raise `InvalidDistance`. -/
def Obligations.DistanceParameterRows : Prop :=
  (∀ s : State, s.inCall = true → s.st.runningState = .metablockHuffmanData → s.st.pcActive = false →
    s.st.hphase = .distParams →
    (s.st.field = .start → s.fetch = .element .npostfix) ∧
    (s.st.field = .ndirecthi → s.fetch = .element .ndirecthi)) ∧
  (∀ p s, exec (.npostfix p) s = .next { s with st := { s.st with npostfix := p, field := .ndirecthi } }) ∧
  (∀ d s, s.st.isLargeWindow = false →
    exec (.ndirecthi d) s = .next
      { s with
        st := { s.st with
          ndirect := d * 2 ^ s.st.npostfix
          distAlphabetMax := 16 + d * 2 ^ s.st.npostfix + 48 * 2 ^ s.st.npostfix
          distAlphabetLimit := 16 + d * 2 ^ s.st.npostfix + 48 * 2 ^ s.st.npostfix
          field := .start, hphase := .ctxModes, hsub := 0, hidx := 0, pcActive := false } }) ∧
  (∀ d s, s.st.isLargeWindow = true → s.st.npostfix < 4 → d < 16 →
    ∃ limit, distAlphabetLimitOf 0x7FFFFFFC s.st.npostfix (d * 2 ^ s.st.npostfix) = some limit ∧
      limit ≤ 16 + d * 2 ^ s.st.npostfix + 124 * 2 ^ s.st.npostfix ∧
      exec (.ndirecthi d) s = .next
        { s with
          st := { s.st with
            ndirect := d * 2 ^ s.st.npostfix
            distAlphabetMax := 16 + d * 2 ^ s.st.npostfix + 124 * 2 ^ s.st.npostfix
            distAlphabetLimit := limit
            field := .start, hphase := .ctxModes, hsub := 0, hidx := 0, pcActive := false } })

/-- R235, R244: phase CTX_MODES reads a context mode, that of the literal block type `hidx`; after the last one the literal
context map begins. -/
def Obligations.ContextModeRows : Prop :=
  (∀ s : State, s.inCall = true → s.st.runningState = .metablockHuffmanData → s.st.pcActive = false →
    s.st.hphase = .ctxModes → s.fetch = .element .cmode) ∧
  ∀ m i s, [Instr.cmodeLsb6, Instr.cmodeMsb6, Instr.cmodeUtf8, Instr.cmodeSigned][m]? = some i →
    (s.st.hidx + 1 < s.st.numBlockTypes.L → exec i s = .next
      { s with
        st := { s.st with
          contextModes := s.st.contextModes.write s.st.hidx (BitVec.ofNat 8 m)
          hidx := s.st.hidx + 1, field := .start } }) ∧
    (s.st.numBlockTypes.L ≤ s.st.hidx + 1 → exec i s = .next
      { s with
        st := { s.st with
          contextModes := s.st.contextModes.write s.st.hidx (BitVec.ofNat 8 m)
          field := .start, hphase := .cmapL, hsub := 0, hidx := 0, pcActive := false } })

/-- R235, R252 to R254, R257, R258: after the number of trees a context map reads its run-length field, after its code the
entries, with that code's table and run limit, after the last entry `IMTF` (the numbers of the sub-phases are assumption log
10's); and what they do. `cmMap` is the map being read, which the last element stores in
the map of the phase with its number of trees (assumption log 22). That `pcActive` becomes 1 in the row before a code is
log 27's choice. -/
def Obligations.ContextMapRows : Prop :=
  (∀ s : State, s.inCall = true → s.st.runningState = .metablockHuffmanData → s.st.pcActive = false →
    s.st.hphase = .cmapL ∨ s.st.hphase = .cmapD →
    (s.st.hsub = 1 → s.st.field = .start → s.fetch = .element .rlemaxflag) ∧
    (s.st.hsub = 1 → s.st.field = .rlemaxm1 → s.fetch = .element .rlemaxm1) ∧
    (s.st.hsub = 3 → s.st.field = .start → s.fetch = .element (.cmap s.st.cmTree s.st.cmRleMax)) ∧
    (s.st.hsub = 4 → s.st.field = .start → s.fetch = .element .imtf)) ∧
  ∀ s,
    exec (.rlemaxflag true) s = .next { s with st := { s.st with field := .rlemaxm1 } } ∧
    (∀ i r, (i = .rlemaxflag false ∧ r = 0 ∨ ∃ x, i = .rlemaxm1 x ∧ r = x + 1) → exec i s = .next
      { s with
        st := { s.st with
          cmRleMax := r, hsub := 2, field := .start, pcActive := true, pcPhase := .start
          pcAlphaMax := s.st.cmNumTrees + r, pcAlphaLimit := s.st.cmNumTrees + r } }) ∧
    (∀ i v, (i = .cmapZero ∧ v = 0 ∨ i = .cmapValue (v + s.st.cmRleMax)) → exec i s = .next
      { s with
        st := { s.st with
          cmMap := s.st.cmMap.write s.st.cmIdx (BitVec.ofNat 8 v)
          cmIdx := s.st.cmIdx + 1, field := .start
          hsub := if s.st.cmIdx + 1 < s.st.cmSize then s.st.hsub else 4 } }) ∧
    (∀ c x i, cmapRunInstr c x = some i → s.st.cmIdx + (2 ^ c + x) ≤ s.st.cmSize → exec i s = .next
      { s with
        st := { s.st with
          cmMap := s.st.cmMap.fill s.st.cmIdx (2 ^ c + x) 0
          cmIdx := s.st.cmIdx + (2 ^ c + x), field := .start
          hsub := if s.st.cmIdx + (2 ^ c + x) < s.st.cmSize then s.st.hsub else 4 } }) ∧
    (∀ c x i, cmapRunInstr c x = some i → s.st.cmSize < s.st.cmIdx + (2 ^ c + x) →
      exec i s = .next (s.raise .contextMapOverflow)) ∧
    (∀ a m, m = (if a then s.st.cmMap.writeAll 0 (inverseMoveToFront (s.st.cmMap.toBytes s.st.cmSize)) else s.st.cmMap) →
      (s.st.hphase = .cmapL → exec (.imtf a) s = .next
        { s with
          st := { s.st with
            cmMap := m, contextMapL := s.st.contextMapL.writeAll 0 (m.toBytes s.st.cmSize)
            numLiteralTrees := s.st.cmNumTrees, field := .start
            hphase := .cmapD, hsub := 0, hidx := 0, pcActive := false } }) ∧
      (s.st.hphase = .cmapD → exec (.imtf a) s = .next
        { s with
          st := { s.st with
            cmMap := m, contextMapD := s.st.contextMapD.writeAll 0 (m.toBytes s.st.cmSize)
            numDistTrees := s.st.cmNumTrees, field := .start
            hphase := .treesL, hsub := 0, hidx := 0
            pcActive := true, pcPhase := .start, pcAlphaMax := 256, pcAlphaLimit := 256 } }))

/-! ## Prefix codes (41_huffman.md) -/

/-- R193, R194, R235: while `pcActive` is 1 the prefix-code reader is next, first its START; the simple form goes on in the
same step. -/
def Obligations.PrefixCodeStartRows : Prop :=
  (∀ s : State, s.inCall = true → s.st.runningState = .metablockHuffmanData → s.st.pcActive = true →
    s.st.pcPhase = .start →
    (s.st.field = .start → s.fetch = .element .hskip) ∧
    (s.st.field = .nsymm1 → s.fetch = .element .nsymm1)) ∧
  (∀ n i s, [Instr.hskip_0, Instr.hskip_1, Instr.hskip_2, Instr.hskip_3][n]? = some i →
    (n = 1 → exec i s = .next { s with st := { s.st with pcHskip := 1, field := .nsymm1 } }) ∧
    (n ≠ 1 → exec i s = .next
      { s with
        st := { s.st with
          pcHskip := n, clLengths := [], clSpace := 32, clNum := 0, clIdx := n
          pcPhase := .clLengths, field := .start } })) ∧
  (∀ n i s, [Instr.nsymm1_0, Instr.nsymm1_1, Instr.nsymm1_2, Instr.nsymm1_3][n]? = some i →
    exec i s = .next { s with st := { s.st with field := .symbol (n + 1) [] } })

/-- R118, R194, R235: a symbol of the simple form is read with the bits needed to write `pcAlphaMax - 1`, the least `w` with
`pcAlphaMax <= 2^w`, while its range is `pcAlphaLimit` (what the form has read so far stands in `field`, assumption log 15).
The symbols of the simple form, then `TREESELECT` for four of them; at its end the range is tested before
duplicates, and the finished code is delivered. -/
def Obligations.SimpleCodeRows : Prop :=
  (∀ s : State, s.inCall = true → s.st.runningState = .metablockHuffmanData → s.st.pcActive = true →
    s.st.pcPhase = .start →
    (∀ nsym read w, s.st.field = .symbol nsym read → 2 ≤ s.st.pcAlphaMax →
      s.st.pcAlphaMax ≤ 2 ^ w → 2 ^ w < 2 * s.st.pcAlphaMax → s.fetch = .element (.symbol w)) ∧
    ∀ read, s.st.field = .treeSelect read → s.fetch = .element .treeselect) ∧
  (∀ s x nsym read, s.st.field = .symbol nsym read →
    (read.length + 1 < nsym →
      exec (.symbol x) s = .next { s with st := { s.st with field := .symbol nsym (read ++ [x]) } }) ∧
    (read.length + 1 = 4 → nsym = 4 →
      exec (.symbol x) s = .next { s with st := { s.st with field := .treeSelect (read ++ [x]) } })) ∧
  (∀ s i symbols a,
    ((∃ x nsym read, i = .symbol x ∧ s.st.field = .symbol nsym read ∧ symbols = read ++ [x] ∧
        nsym = symbols.length ∧ nsym ≠ 4 ∧ a = false) ∨
      i = .treeselect a ∧ s.st.field = .treeSelect symbols) →
    ((∃ x ∈ symbols, s.st.pcAlphaLimit ≤ x) → exec i s = .next (s.raise .incompleteHuffmanCode)) ∧
    ((∀ x ∈ symbols, x < s.st.pcAlphaLimit) → ¬ symbols.Nodup →
      exec i s = .next (s.raise .duplicateSimpleHuffmanSymbol)) ∧
    ((∀ x ∈ symbols, x < s.st.pcAlphaLimit) → symbols.Nodup →
      exec i s = .next
        { s with
          st := { s.st with field := .start }.deliver
            (.build (simpleLengths symbols a s.st.pcAlphaLimit) Config.huffRootBits) }))

/-- R181, R188, R194: the lengths a simple form gives its symbols in the order listed, 0 elsewhere; the code is the
one-symbol code or exactly complete. -/
def Obligations.SimpleCodesAreComplete : Prop :=
  ∀ (symbols : List Nat) (a : Bool) (limit : Nat) (lens : List Nat),
    symbols.Nodup → (∀ x ∈ symbols, x < limit) →
    (symbols.length = 1 ∧ lens = [1] ∨ symbols.length = 2 ∧ lens = [1, 1] ∨ symbols.length = 3 ∧ lens = [1, 2, 2] ∨
      symbols.length = 4 ∧ lens = if a then [1, 2, 3, 3] else [2, 2, 2, 2]) →
    (simpleLengths symbols a limit).length = limit ∧
    (∀ (i : Fin symbols.length), (simpleLengths symbols a limit).getD symbols[i] 0 = lens.getD i 0) ∧
    (∀ x, x ∉ symbols → (simpleLengths symbols a limit).getD x 0 = 0) ∧
    (if symbols.length = 1 then usedSymbols (simpleLengths symbols a limit) = 1
      else completeCode (simpleLengths symbols a limit) = true)

/-- R196, R235: in phase CL_LENGTHS a code-length-code length is read; `v`, at the next position of `CL_ORDER`; when the code space is used up or all 18 are
read, the code must be complete or have one length, and the symbol lengths begin. -/
def Obligations.CodeLengthCodeRows : Prop :=
  (∀ s : State, s.inCall = true → s.st.runningState = .metablockHuffmanData → s.st.pcActive = true →
    s.st.pcPhase = .clLengths → s.fetch = .element .cllen) ∧
  ∀ (v : Nat) (i : Instr) (s : State) (clLengths : Memory) (clSpace : Int) (clNum : Nat),
    [Instr.cllen_0, Instr.cllen_1, Instr.cllen_2, Instr.cllen_3, Instr.cllen_4, Instr.cllen_5][v]? = some i →
    clLengths = s.st.clLengths.write (tableAt clOrder s.st.clIdx) (BitVec.ofNat 8 v) →
    clSpace = (if v = 0 then s.st.clSpace else s.st.clSpace - (32 / 2 ^ v : Nat)) →
    clNum = (if v = 0 then s.st.clNum else s.st.clNum + 1) →
    (0 < clSpace → s.st.clIdx + 1 ≠ 18 → exec i s = .next
      { s with
        st := { s.st with
          clLengths := clLengths, clIdx := s.st.clIdx + 1, clSpace := clSpace, clNum := clNum, field := .start } }) ∧
    (clSpace ≤ 0 ∨ s.st.clIdx + 1 = 18 → clSpace ≠ 0 → clNum ≠ 1 →
      exec i s = .next (s.raise .incompleteHuffmanCode)) ∧
    (clSpace ≤ 0 ∨ s.st.clIdx + 1 = 18 → clSpace = 0 ∨ clNum = 1 → exec i s = .next
      { s with
        st := { s.st with
          clLengths := clLengths, clIdx := s.st.clIdx + 1, clSpace := clSpace, clNum := clNum, field := .start
          codeLengths := [], symIdx := 0, prevCodeLen := 8, repeatCount := 0, repeatCodeLen := 0
          space := 32768, pcPhase := .symLengths } })

/-- R196, R198 to R200, R235: in phase SYM_LENGTHS a code-length symbol is read with the table of root width 5 built from
`clLengths` (built again wherever it is used: assumption log 15). It writes one length, or repeats one; a run past the alphabet raises
`IncompleteHuffmanCode`; then the next symbol while code space and alphabet are left, an error if code space is left or
overdrawn, or the finished code. `st` are the registers after the symbol. -/
def Obligations.SymbolLengthRows : Prop :=
  (∀ s : State, s.inCall = true → s.st.runningState = .metablockHuffmanData → s.st.pcActive = true →
    s.st.pcPhase = .symLengths →
    s.fetch = .element (.clsym (.build ((s.st.clLengths.toBytes 18).map BitVec.toNat) 5))) ∧
  (∀ i s st,
    ((∃ c, clsymInstr c = some i ∧
        st = { s.st with
          repeatCount := 0, codeLengths := s.st.codeLengths.write s.st.symIdx (BitVec.ofNat 8 c)
          symIdx := s.st.symIdx + 1, prevCodeLen := if c = 0 then s.st.prevCodeLen else c
          space := if c = 0 then s.st.space else s.st.space - (32768 / 2 ^ c : Nat), field := .start }) ∨
      ∃ len xb x old total,
        (i = .clsym_16 x ∧ len = s.st.prevCodeLen ∧ xb = 2 ∨ i = .clsym_17 x ∧ len = 0 ∧ xb = 3) ∧
        old = (if s.st.repeatCodeLen = len then s.st.repeatCount else 0) ∧
        total = (if 0 < old then (old - 2) * 2 ^ xb else 0) + x + 3 ∧
        s.st.symIdx + (total - old) ≤ s.st.pcAlphaLimit ∧
        st = { s.st with
          repeatCount := total, repeatCodeLen := len
          codeLengths := s.st.codeLengths.fill s.st.symIdx (total - old) (BitVec.ofNat 8 len)
          symIdx := s.st.symIdx + (total - old)
          space := if len = 0 then s.st.space else s.st.space - ((total - old) * 2 ^ (15 - len) : Nat)
          field := .start }) →
    (st.symIdx < st.pcAlphaLimit → 0 < st.space → exec i s = .next { s with st := st }) ∧
    (st.pcAlphaLimit ≤ st.symIdx ∨ st.space ≤ 0 → st.space ≠ 0 →
      exec i s = .next (s.raise .incompleteHuffmanCode)) ∧
    (st.space = 0 → exec i s = .next
      { s with
        st := st.deliver
          (.build ((st.codeLengths.toBytes st.pcAlphaLimit).map BitVec.toNat) Config.huffRootBits) })) ∧
  (∀ i s len xb x old,
    (i = .clsym_16 x ∧ len = s.st.prevCodeLen ∧ xb = 2 ∨ i = .clsym_17 x ∧ len = 0 ∧ xb = 3) →
    old = (if s.st.repeatCodeLen = len then s.st.repeatCount else 0) →
    s.st.pcAlphaLimit < s.st.symIdx + ((if 0 < old then (old - 2) * 2 ^ xb else 0) + x + 3 - old) →
    exec i s = .next (s.raise .incompleteHuffmanCode))

/-- R238, R253, R260: where a finished code goes, and what is read next. That `pcActive` stays 1 where another code follows is
assumption log 27's choice. -/
def Obligations.FinishedCodeGoesToItsPhase : Prop :=
  ∀ (st : DecoderState) (T : HuffmanTable),
    (∀ k, (st.hphase = .partL ∧ k = .L ∨ st.hphase = .partI ∧ k = .I ∨ st.hphase = .partD ∧ k = .D) →
      (st.hsub = 1 → st.deliver T =
        { st with
          blockTypeTree := st.blockTypeTree.set k T, hsub := 2
          pcActive := true, pcPhase := .start, pcAlphaMax := 26, pcAlphaLimit := 26 }) ∧
      (st.hsub = 2 → st.deliver T =
        { st with blockLenTree := st.blockLenTree.set k T, hsub := 3, pcActive := false })) ∧
    (st.hphase = .cmapL ∨ st.hphase = .cmapD → st.deliver T = { st with cmTree := T, hsub := 3, pcActive := false }) ∧
    (st.hphase = .treesL → st.deliver T =
      if st.hidx + 1 < st.numLiteralTrees then
        { st with
          literalTrees := st.literalTrees ++ [T], hidx := st.hidx + 1
          pcActive := true, pcPhase := .start, pcAlphaMax := 256, pcAlphaLimit := 256 }
      else
        { st with
          literalTrees := st.literalTrees ++ [T], hphase := .treesI, hsub := 0, hidx := 0
          pcActive := true, pcPhase := .start, pcAlphaMax := 704, pcAlphaLimit := 704 }) ∧
    (st.hphase = .treesI → st.deliver T =
      if st.hidx + 1 < st.numBlockTypes.I then
        { st with
          commandTrees := st.commandTrees ++ [T], hidx := st.hidx + 1
          pcActive := true, pcPhase := .start, pcAlphaMax := 704, pcAlphaLimit := 704 }
      else
        { st with
          commandTrees := st.commandTrees ++ [T], hphase := .treesD, hsub := 0, hidx := 0
          pcActive := true, pcPhase := .start
          pcAlphaMax := st.distAlphabetMax, pcAlphaLimit := st.distAlphabetLimit }) ∧
    (st.hphase = .treesD → st.deliver T =
      if st.hidx + 1 < st.numDistTrees then
        { st with
          distanceTrees := st.distanceTrees ++ [T], hidx := st.hidx + 1
          pcActive := true, pcPhase := .start
          pcAlphaMax := st.distAlphabetMax, pcAlphaLimit := st.distAlphabetLimit }
      else
        { st with
          distanceTrees := st.distanceTrees ++ [T], hphase := .finalize, hsub := 0, hidx := 0, pcActive := false })

/-- R180, R191: the table built from a complete code, or from a one-symbol code, reads back every word of the code, whatever
bits follow it. Lengths are at most 15 (R180), and symbols fit the 16 bits of an entry (R183). -/
def Obligations.TableReadsItsCode : Prop :=
  ∀ L rootBits, (rootBits = Config.huffRootBits ∨ rootBits = Config.clRootBits) → L.length ≤ 1128 →
    (∀ l ∈ L, l ≤ 15) → (completeCode L = true ∨ usedSymbols L = 1) → (HuffmanTable.build L rootBits).Reads

/-! ## Commands, literals, distances (43_sequence.md) -/

/-- R235, R238, R239, R295: a block type symbol, then the count of code `c`, read with the category's own tree: of a switch, or
the first of a partition, in its last sub-phase. -/
def Obligations.BlockSwitchRows : Prop :=
  (∀ (s : State) k, s.inCall = true → s.st.runningState = .metablockHuffmanData → s.st.pcActive = false → s.st.hsub = 3 →
    s.st.field = .start →
    (s.st.hphase = .partL ∧ k = .L ∨ s.st.hphase = .partI ∧ k = .I ∨ s.st.hphase = .partD ∧ k = .D) →
    s.st.cat = k ∧ s.fetch = .element (.blen (s.st.blockLenTree.get k))) ∧
  (∀ (s : State) t k, s.inCall = true → s.st.field = .blockCount t →
    (s.st.runningState = .mainLoop ∧ k = .I ∨ s.st.runningState = .insertLoop ∧ s.st.j < s.st.insertLength ∧ k = .L ∨
      s.st.runningState = .insertLoop ∧ s.st.insertLength ≤ s.st.j ∧ k = .D) →
    s.st.cat = k ∧ s.fetch = .element (.blen (s.st.blockLenTree.get k))) ∧
  (∀ s, exec .btypePrev s = .next { s with st := { s.st with field := .blockCount 0 } }) ∧
  (∀ s, exec .btypeNext s = .next { s with st := { s.st with field := .blockCount 1 } }) ∧
  (∀ t s, exec (.btypeAbs t) s = .next { s with st := { s.st with field := .blockCount t } }) ∧
  (∀ c x i s t k new, blenInstr c x = some i → s.st.field = .blockCount t → s.st.cat = k →
    new = (if t = 0 then s.st.prevBlockType.get k else if t = 1 then s.st.blockType.get k + 1 else t - 2) →
    exec i s = .next
      { s with
        st := { s.st with
          prevBlockType := s.st.prevBlockType.set k (s.st.blockType.get k)
          blockType := s.st.blockType.set k
            (if s.st.numBlockTypes.get k ≤ new then new - s.st.numBlockTypes.get k else new)
          blockLength := s.st.blockLength.set k (tableAt blenBase c + x)
          field := .start } }) ∧
  (∀ c x i s k, blenInstr c x = some i → s.st.field = .start → s.st.cat = k →
    exec i s = .next
      { s with
        st := { s.st with
          blockLength := s.st.blockLength.set k (tableAt blenBase c + x)
          field := .start
          hphase := match k with | .L => .partI | .I => .partD | .D => .distParams
          hsub := 0, hidx := 0, pcActive := false } })

/-- R280 to R282, R284, R286, R295, R299: what MainLoop reads: the end of the meta-block, a block switch where the count is
used up, else a command symbol with the tree of the block type; then a command symbol, its insert length and its copy
length; an insert length beyond the meta-block raises `CorruptMetablockLength`. That a category of one block type has no
switch is assumption log 23's reading. -/
def Obligations.CommandRows : Prop :=
  (∀ s : State, s.inCall = true → s.st.runningState = .mainLoop → s.st.field = .start →
    (s.st.metaBlockLength = 0 → s.fetch = .internal .endOfBlock) ∧
    (s.st.metaBlockLength ≠ 0 → s.st.blockLength.I = 0 → 2 ≤ s.st.numBlockTypes.I →
      s.fetch = .element (.btype s.st.blockTypeTree.I)) ∧
    (∀ T, s.st.metaBlockLength ≠ 0 → s.st.blockLength.I ≠ 0 ∨ s.st.numBlockTypes.I < 2 →
      s.st.commandTrees[s.st.blockType.I]? = some T → s.fetch = .element (.cmd T))) ∧
  (∀ c i s, cmdInstr c = some i → exec i s = .next
    { s with
      st := { s.st with
        blockLength := s.st.blockLength.set .I (s.st.blockLength.I - 1)
        cmdCode := c, distImplicit := decide (c < 128), field := .insLen } }) ∧
  (∀ c x i s, inslenInstr c x = some i → exec i s = .next
    { s with st := { s.st with insertLength := tableAt insBase c + x, field := .copyLen } }) ∧
  (∀ c x i s, copylenInstr c x = some i → s.st.insertLength ≤ s.st.metaBlockLength → exec i s = .next
    { s with
      st := { s.st with
        copyLength := tableAt copyBase c + x
        distContext := if tableAt copyBase c + x ≤ 4 then tableAt copyBase c + x - 2 else 3
        j := 0, runningState := .insertLoop, field := .start } }) ∧
  (∀ c x i s, copylenInstr c x = some i → s.st.metaBlockLength < s.st.insertLength →
    exec i s = .next (s.raise .corruptMetablockLength))

/-- R290 to R292, R295, R383, R385: while literals are left InsertLoop reads a block switch where the count is used up, else a
literal with the tree that the literal context map names at the block type and the context of the last byte `p1` and the one
before it `p2`, 0 before the start of the output; a literal is emitted and counted, with the fence test. `RingReadsHistory`
says that the ring's bytes are the history's. That a category of one block type has no switch is assumption log 23's
reading. -/
def Obligations.LiteralRow : Prop :=
  (∀ s : State, s.inCall = true → s.st.runningState = .insertLoop → s.st.field = .start → s.st.j < s.st.insertLength →
    (s.st.blockLength.L = 0 → 2 ≤ s.st.numBlockTypes.L → s.fetch = .element (.btype s.st.blockTypeTree.L)) ∧
    (∀ (T : HuffmanTable) (p1 p2 : Byte) (mode : Nat), s.st.blockLength.L ≠ 0 ∨ s.st.numBlockTypes.L < 2 →
      p1 = (if s.st.pos < 1 then 0 else s.st.RB.read (((s.st.pos : Int) - 1) % (2 ^ s.st.windowBits : Nat)).toNat) →
      p2 = (if s.st.pos < 2 then 0 else s.st.RB.read (((s.st.pos : Int) - 2) % (2 ^ s.st.windowBits : Nat)).toNat) →
      mode = (s.st.contextModes.read s.st.blockType.L).toNat →
      s.st.literalTrees[(s.st.contextMapL.read
        (64 * s.st.blockType.L + contextId mode p1.toNat p2.toNat)).toNat]? = some T →
      s.fetch = .element (.lit T))) ∧
  ∀ b s, exec (.lit b) s = .next
    { s with
      st := { s.st with
        RB := s.st.RB.write (s.st.pos % s.st.RS) b, H := s.st.H ++ [b], pos := s.st.pos + 1
        blockLength := s.st.blockLength.set .L (s.st.blockLength.L - 1), j := s.st.j + 1
        metaBlockLength := s.st.metaBlockLength - 1, field := .start
        resumeState := if s.st.fence ≤ s.st.pos + 1 then .insertLoop else s.st.resumeState
        runningState := if s.st.fence ≤ s.st.pos + 1 then .writeOutput else .insertLoop } }

/-- R295, R298, R300, R301, R303, R305, R306: after the literals InsertLoop ends the meta-block where it is used up; else it
takes the implicit distance, or reads a block switch where the count is used up, or a distance with the tree that the
distance context map names at the block type and the command's context. The distance of each row goes to `Resolve()`; an
explicit one counts against the block, and one that is not positive raises `InvalidDistance`. That a category of one block
type has no switch is assumption log 23's reading. -/
def Obligations.DistanceRows : Prop :=
  (∀ s : State, s.inCall = true → s.st.runningState = .insertLoop → s.st.field = .start → s.st.insertLength ≤ s.st.j →
    (s.st.metaBlockLength = 0 → s.fetch = .internal .literalsDone) ∧
    (s.st.metaBlockLength ≠ 0 → s.st.distImplicit = true → s.fetch = .element .distImplicit) ∧
    (s.st.metaBlockLength ≠ 0 → s.st.distImplicit = false → s.st.blockLength.D = 0 → 2 ≤ s.st.numBlockTypes.D →
      s.fetch = .element (.btype s.st.blockTypeTree.D)) ∧
    (∀ T, s.st.metaBlockLength ≠ 0 → s.st.distImplicit = false → s.st.blockLength.D ≠ 0 ∨ s.st.numBlockTypes.D < 2 →
      s.st.distanceTrees[(s.st.contextMapD.read (4 * s.st.blockType.D + s.st.distContext)).toNat]? = some T →
      s.fetch = .element (.dist T s.st.npostfix s.st.ndirect))) ∧
  (∀ s, exec .distImplicit s = .next (s.resolve { s.st with distance := s.st.distRing[s.st.distRbIdx] })) ∧
  ∀ s i sym (d : Int),
    (distShortInstr sym = some i ∧
        d = (s.st.distRing[s.st.distRbIdx + Fin.ofNat 4 (tableAt distShortIdx sym)] : Nat) +
          distShortVal.getD sym 0 ∨
      i = .distDirect sym ∧ d = (sym : Int) - 15 ∨
      ∃ x, i = .distLong sym x ∧ d = (longDistance s.st.npostfix s.st.ndirect sym x : Nat)) →
    (d ≤ 0 → exec i s = .next (s.raise .invalidDistance)) ∧
    (0 < d → exec i s = .next
      (s.resolve
        { s.st with
          blockLength := s.st.blockLength.set .D (s.st.blockLength.D - 1), distSymbol := sym, distance := d.toNat }))

/-- R320 to R324: `Resolve()` of the registers `st`: beyond the window a dictionary reference, the ring not pushed; inside
it the ring is pushed unless the distance was implicit or symbol 0, and the copy must fit the meta-block. -/
def Obligations.ResolveOutcomes : Prop :=
  ∀ (s : State) (st : DecoderState) (limit : Nat), limit = min st.pos st.maxBackwardDistance →
    (limit < st.distance → s.resolve st =
      { s with st := { st with maxDistance := limit, field := .start, runningState := .useDictionary } }) ∧
    (st.distance ≤ limit → st.metaBlockLength < st.copyLength → s.resolve st = s.raise .copyLengthExceedsBlock) ∧
    (st.distance ≤ limit → st.copyLength ≤ st.metaBlockLength → st.distImplicit = true ∨ st.distSymbol = 0 →
      s.resolve st = { s with st := { st with maxDistance := limit, field := .start, j := 0, runningState := .copyLoop } }) ∧
    (st.distance ≤ limit → st.copyLength ≤ st.metaBlockLength → st.distImplicit = false → st.distSymbol ≠ 0 →
      ∃ ring : Vector Nat 4,
        s.resolve st =
          { s with
            st := { st with
              distRbIdx := st.distRbIdx + 1, distRing := ring, maxDistance := limit, field := .start, j := 0
              runningState := .copyLoop } } ∧
        ring[st.distRbIdx + 1] = st.distance ∧ ∀ i : Fin 4, i ≠ st.distRbIdx + 1 → ring[i] = st.distRing[i])

/-- R262, R306: below the limit of the large-window alphabet no distance exceeds 0x7FFFFFFC; the four examples of R262. -/
def Obligations.DistancesBelowTheLimit : Prop :=
  (∀ npostfix d sym x limit, npostfix < 4 → d < 16 →
    distAlphabetLimitOf 0x7FFFFFFC npostfix (d * 2 ^ npostfix) = some limit →
    16 + d * 2 ^ npostfix ≤ sym → sym < limit → x < 2 ^ distExtraBits npostfix (d * 2 ^ npostfix) sym →
    1 ≤ longDistance npostfix (d * 2 ^ npostfix) sym x ∧
      longDistance npostfix (d * 2 ^ npostfix) sym x ≤ 0x7FFFFFFC) ∧
  distAlphabetLimitOf 0x7FFFFFFC 0 0 = some 74 ∧ distAlphabetLimitOf 0x7FFFFFFC 0 15 = some 88 ∧
  distAlphabetLimitOf 0x7FFFFFFC 3 0 = some 432 ∧ distAlphabetLimitOf 0x7FFFFFFC 3 120 = some 544

/-- R293, R255: a literal context is below 64; the inverse move-to-front transform keeps values below the number of
trees. -/
def Obligations.ContextBounds : Prop :=
  (∀ mode p1 p2, p1 < 256 → p2 < 256 → contextId mode p1 p2 < 64) ∧
  ∀ (n : Nat) (map : List Byte), n ≤ 256 → (∀ b ∈ map, b.toNat < n) →
    (inverseMoveToFront map).length = map.length ∧ ∀ b ∈ inverseMoveToFront map, b.toNat < n

/-- R284: a command step is the three rows of its element, one after the other: with the symbol's word, the insert extra
bits and the copy extra bits in the stream, three steps give the registers of R284's pseudocode and consume those bits. -/
def Obligations.CommandStep : Prop :=
  ∀ (s : State) (T : HuffmanTable) (v c n x y : Nat),
    s.inCall = true → s.st.runningState = .mainLoop → s.st.field = .start → s.ckpt = none →
    s.params.lookaheadBits = 0 → s.st.metaBlockLength ≠ 0 → s.st.blockLength.I ≠ 0 →
    s.st.commandTrees[s.st.blockType.I]? = some T →
    v = streamValue s.IN s.st.bitpos → T.lookup (v % 2 ^ 15) = some (c, n) → n ≤ 15 → c < 704 → 63 ≤ s.bitsHeld →
    x = v / 2 ^ n % 2 ^ tableAt insXbits (insertCode c) →
    y = v / 2 ^ (n + tableAt insXbits (insertCode c)) % 2 ^ tableAt copyXbits (copyCode c) →
    tableAt insBase (insertCode c) + x ≤ s.st.metaBlockLength →
    Sys2Proof.core.run 3 s = .next
      { s with
        st := { s.st with
          bitpos := s.st.bitpos + n + tableAt insXbits (insertCode c) + tableAt copyXbits (copyCode c)
          blockLength := s.st.blockLength.set .I (s.st.blockLength.I - 1)
          cmdCode := c
          insertLength := tableAt insBase (insertCode c) + x
          copyLength := tableAt copyBase (copyCode c) + y
          distImplicit := implicitDistance c
          distContext := distContextOf (tableAt copyBase (copyCode c) + y)
          j := 0, runningState := .insertLoop } }

/-! ## Copies and the dictionary (44_dictionary.md) -/

/-- R344, R346, R347: a static word under transform `n` is emitted whole, counts with its transformed length, and the fence
is tested after it (after an empty word too: assumption log 28); one that exceeds the meta-block raises
`CopyLengthExceedsBlock` and emits nothing. -/
def Obligations.TransformRows : Prop :=
  ∀ n i s w, transformInstr n = some i → w = s.staticWord n →
    (s.st.metaBlockLength < w.length → exec i s = .next (s.raise .copyLengthExceedsBlock)) ∧
    (w.length ≤ s.st.metaBlockLength → exec i s = .next
      { s with
        st := { s.st with
          RB := (w.foldl DecoderState.emit s.st).RB, H := s.st.H ++ w, pos := s.st.pos + w.length
          metaBlockLength := s.st.metaBlockLength - w.length, field := .start
          resumeState := if s.st.fence ≤ s.st.pos + w.length then .mainLoop else s.st.resumeState
          runningState := if s.st.fence ≤ s.st.pos + w.length then .writeOutput else .mainLoop } })

/-- R340, R341, R344, R372, R373: what a dictionary reference is: too far, in the compound dictionary, in the static
dictionary under the transform its address names, or out of range. -/
def Obligations.DictionaryReferences : Prop :=
  ∀ (s : State) (a : Int), s.inCall = true → s.st.runningState = .useDictionary → s.st.field = .start → s.ckpt = none →
    a = (s.st.distance : Int) - s.st.maxDistance - 1 - s.st.cdTotalSize →
    (0x7FFFFFFC < s.st.distance → step s = .next (s.raise .invalidDistance)) ∧
    (s.st.distance ≤ 0x7FFFFFFC → 0 ≤ a → 4 ≤ s.st.copyLength → s.st.copyLength ≤ 24 →
      a.toNat / 2 ^ tableAt ndBits s.st.copyLength < 121 →
      s.fetch = .element (.transform (a.toNat / 2 ^ tableAt ndBits s.st.copyLength))) ∧
    (s.st.distance ≤ 0x7FFFFFFC → 0 ≤ a → (s.st.copyLength < 4 ∨ 24 < s.st.copyLength ∨
        121 ≤ a.toNat / 2 ^ tableAt ndBits s.st.copyLength) →
      step s = .next (s.raise .dictionaryAddressOutOfRange)) ∧
    (s.st.distance ≤ 0x7FFFFFFC → a < 0 → (s.st.cdTotalSize : Int) < -a - 1 + s.st.copyLength →
      step s = .next (s.raise .compoundDictionaryOverflow)) ∧
    (s.st.distance ≤ 0x7FFFFFFC → a < 0 → -a - 1 + s.st.copyLength ≤ (s.st.cdTotalSize : Int) →
      s.st.metaBlockLength < s.st.copyLength → step s = .next (s.raise .copyLengthExceedsBlock)) ∧
    (s.st.distance ≤ 0x7FFFFFFC → a < 0 → -a - 1 + s.st.copyLength ≤ (s.st.cdTotalSize : Int) →
      s.st.copyLength ≤ s.st.metaBlockLength →
      step s = .next
        { s with
          st := { s.st.pushDistance s.st.distance with
            cdBrIndex := s.st.chunkOf (-a - 1).toNat
            cdBrOffset := (-a - 1).toNat - s.st.cdOffset (s.st.chunkOf (-a - 1).toNat)
            cdBrLength := s.st.copyLength, cdBrCopied := 0, runningState := .compoundDictionaryCopy } })

/-- R345, R363: no word leaves DICT, and no transformed word is longer than 37 bytes. -/
def Obligations.StaticWordBounds : Prop :=
  (∀ len address b, 4 ≤ len → len ≤ 24 → b < len →
    tableAt dOffset len + wordIndex len address * len + b < Config.dictBytes) ∧
  ∀ n (w : List Byte), w.length ≤ 24 → (transformWord w n).length ≤ 37

/-- R372, R375: the chunk search finds the chunk of the byte sought, and stepping over the end of a chunk does not move the
next byte's address: the copy reads CD on from where it began. -/
def Obligations.CompoundCopyReadsOn : Prop :=
  (∀ (st : DecoderState) (a : Nat), st.cdNumChunks ≤ 15 → st.cdOffset 0 = 0 →
    (∀ i, i < st.cdNumChunks → st.cdOffset i ≤ st.cdOffset (i + 1)) → a < st.cdTotalSize →
    st.cdOffset (st.chunkOf a) ≤ a ∧ a < st.cdOffset (st.chunkOf a + 1) ∧ st.chunkOf a < st.cdNumChunks) ∧
  ∀ (st : DecoderState) (fuel : Nat), (st.skipChunks fuel).cdAddress = st.cdAddress

/-- R325, R375, R409: in CopyLoop and in CompoundDictionaryCopy the copy's step fires, whose source, where a byte is left to
copy, lies in the history (R322), or in CD. One byte of a copy: the byte `distance` back in the ring, or the next byte of CD, is emitted and counted,
with the fence test; a finished copy goes to MainLoop. -/
def Obligations.CopySteps : Prop :=
  (∀ s : State, s.inCall = true →
    (s.st.runningState = .copyLoop →
      s.st.j = s.st.copyLength ∨ (1 ≤ s.st.distance ∧ s.st.distance ≤ s.st.pos) → s.fetch = .internal .copy) ∧
    (s.st.runningState = .compoundDictionaryCopy →
      s.st.cdBrCopied = s.st.cdBrLength ∨ s.st.cdOffset s.st.cdBrIndex + s.st.cdBrOffset < s.st.CD.length →
      s.fetch = .internal .compoundCopy)) ∧
  (∀ s : State, s.st.j = s.st.copyLength →
    Internal.run .copy s = { s with st := { s.st with runningState := .mainLoop } }) ∧
  (∀ (s : State) (b : Byte), s.st.j ≠ s.st.copyLength →
    b = s.st.RB.read (((s.st.pos : Int) - s.st.distance) % (2 ^ s.st.windowBits : Nat)).toNat →
    Internal.run .copy s =
      { s with
        st := { s.st with
          RB := s.st.RB.write (s.st.pos % s.st.RS) b, H := s.st.H ++ [b], pos := s.st.pos + 1
          j := s.st.j + 1, metaBlockLength := s.st.metaBlockLength - 1
          resumeState := if s.st.fence ≤ s.st.pos + 1 then .copyLoop else s.st.resumeState
          runningState := if s.st.fence ≤ s.st.pos + 1 then .writeOutput else .copyLoop } }) ∧
  (∀ s : State, s.st.cdBrCopied = s.st.cdBrLength →
    Internal.run .compoundCopy s = { s with st := { s.st with runningState := .mainLoop } }) ∧
  (∀ (s : State) (b : Byte), s.st.cdBrCopied ≠ s.st.cdBrLength →
    b = s.st.CD.getD (s.st.cdOffset s.st.cdBrIndex + s.st.cdBrOffset) 0 → ∃ index offset,
    Internal.run .compoundCopy s =
      { s with
        st := { s.st with
          RB := s.st.RB.write (s.st.pos % s.st.RS) b, H := s.st.H ++ [b], pos := s.st.pos + 1
          cdBrCopied := s.st.cdBrCopied + 1, metaBlockLength := s.st.metaBlockLength - 1
          cdBrIndex := index, cdBrOffset := offset
          resumeState := if s.st.fence ≤ s.st.pos + 1 then .compoundDictionaryCopy else s.st.resumeState
          runningState := if s.st.fence ≤ s.st.pos + 1 then .writeOutput else .compoundDictionaryCopy } } ∧
    s.st.cdOffset index + offset = s.st.cdOffset s.st.cdBrIndex + s.st.cdBrOffset + 1)

/-! ## Between elements, output, and the end (42_metablock.md, 45_ringbuffer_output.md) -/

/-- R223, R230, R231, R265, R284, R298, R409: the element steps that read no bit and move from one state to the next, and
where BlockStart's and FINALIZE's fire (the end of a meta-block: `RawAndSkippedBytes`, `CommandRows`; the end of the
literals: `DistanceRows`). -/
def Obligations.BoundarySteps : Prop :=
  (∀ s : State, s.inCall = true →
    (s.st.runningState = .blockStart → s.fetch = .internal .blockStart) ∧
    (s.st.runningState = .metablockHuffmanData → s.st.pcActive = false → s.st.hphase = .finalize →
      s.fetch = .internal .finalize)) ∧
  ∀ s : State,
    (s.st.isLast = true →
      Internal.run .blockStart s = { s with st := { s.st with resumeState := .finished, runningState := .writeOutput } }) ∧
    (s.st.isLast = false → Internal.run .blockStart s = { s with st := { s.st with runningState := .metablockHeader } }) ∧
    Internal.run .endOfBlock s = { s with st := { s.st with runningState := .blockStart } } ∧
    Internal.run .finalize s = { s with st := { s.st with j := 0, runningState := .mainLoop } } ∧
    Internal.run .literalsDone s = { s with st := { s.st with runningState := .mainLoop } }

/-- R388, R409: in WriteOutput its step fires. It delivers as many bytes as are produced and fit, in order; with bytes left
the call returns `NeedMoreOutput`, which the status values keep (R43), else decoding goes on in `resumeState`. That `HOSTBUF`
is the list of the bytes written, to which the step appends, is assumption log 19's form of R388's write at index `outCount`:
inside a call it has `outCount` bytes (`BaseInv.buffer`, which `StepKeepsTheInvariant` keeps), and then byte `k` of what is
delivered is at index `outCount + k`. -/
def Obligations.WriteOutputDelivers : Prop :=
  (∀ s : State, s.inCall = true → s.st.runningState = .writeOutput → s.fetch = .internal .writeOutput) ∧
  (∀ (s : State) (n k : Nat), s.HOSTBUF.length = s.st.outCount → n = min (s.st.pos - s.st.flushed) s.st.outCap →
    (k < s.st.outCount → (Internal.run .writeOutput s).HOSTBUF[k]? = s.HOSTBUF[k]?) ∧
    (k < n → (Internal.run .writeOutput s).HOSTBUF[s.st.outCount + k]? = s.st.H[s.st.flushed + k]?)) ∧
  ∀ (s : State) (n : Nat) (bs : List Byte), n = min (s.st.pos - s.st.flushed) s.st.outCap →
    bs = (s.st.H.drop s.st.flushed).take n →
    (s.st.flushed + n < s.st.pos → Internal.run .writeOutput s =
      { s with
        st := { s.st with
          flushed := s.st.flushed + n, outCount := s.st.outCount + n, outCap := s.st.outCap - n }
        HOSTBUF := s.HOSTBUF ++ bs, OUT := s.OUT ++ bs
        ckpt := none, inCall := false, result := .decompressed (s.st.outCount + n) .needMoreOutput
        report := some ⟨s.st.outCount + n, .needMoreOutput⟩ }) ∧
    (s.st.pos ≤ s.st.flushed + n → Internal.run .writeOutput s =
      { s with
        st := { s.st with
          flushed := s.st.flushed + n, outCount := s.st.outCount + n, outCap := s.st.outCap - n
          runningState := s.st.resumeState }
        HOSTBUF := s.HOSTBUF ++ bs, OUT := s.OUT ++ bs })

/-- R159, R392, R409: in Finished, after the final padding (`PaddingRows`): a byte left raises `ExcessiveTrailingInput`, the end of the stream gives `Done`,
and otherwise the source is asked. -/
def Obligations.EndOfStream : Prop :=
  (∀ s : State, s.inCall = true → s.st.runningState = .finished → s.st.field = .atEnd → s.fetch = .internal .atEnd) ∧
  ∀ s : State,
    (s.st.bitpos < 8 * s.inLen → Internal.run .atEnd s = s.raise .excessiveTrailingInput) ∧
    (8 * s.inLen ≤ s.st.bitpos → s.srcEOF = true → Internal.run .atEnd s =
      { s with
        st := { s.st with field := .start }
        ckpt := none, inCall := false, result := .decompressed s.st.outCount .done
        report := some ⟨s.st.outCount, .done⟩ }) ∧
    (8 * s.inLen ≤ s.st.bitpos → s.srcEOF = false → Internal.run .atEnd s = s.pull)

/-- R383, R381: the frame of the ring buffer: a row that emits one byte changes the one cell at `pos mod RS`, a static
word that fits the meta-block and the ring the cells at the positions it takes; every other cell reads as before. -/
def Obligations.EmittedByteFrame : Prop :=
  (∀ i b s t, (i = .raw b ∨ i = .lit b) → s.st.RB.wf → exec i s = .next t →
    t.st.RB.read (s.st.pos % s.st.RS) = b ∧ ∀ a, a ≠ s.st.pos % s.st.RS → t.st.RB.read a = s.st.RB.read a) ∧
  ∀ n i s t w, transformInstr n = some i → w = s.staticWord n → s.st.RB.wf → w.length ≤ s.st.metaBlockLength →
    w.length ≤ s.st.RS → exec i s = .next t →
    (∀ k < w.length, t.st.RB.read ((s.st.pos + k) % s.st.RS) = w.getD k 0) ∧
    ∀ a, (∀ k < w.length, a ≠ (s.st.pos + k) % s.st.RS) → t.st.RB.read a = s.st.RB.read a

/-- R382: a ring read at a backward distance inside the history and the ring gives the history's byte. -/
def Obligations.RingReadsHistory : Prop :=
  ∀ (st : DecoderState) (d : Nat), MirrorsHistory st → st.pos = st.H.length → 1 ≤ d → d ≤ st.pos → d ≤ st.RS →
    st.ringBack d = st.H.getD (st.pos - d) 0

/-! ## Every step -/

/-- R24, R50, R71, R388, R389: every step keeps the invariant: memories in canonical form, the cursor within the stream, `OUT`
the delivered part of the history, the host's buffer as long as `outCount` inside a call (assumption log 19), distances positive, the element step in progress precise, and the ranges of R50: the copy
counter, the block types, and the context maps' entries below their numbers of trees (from when on is assumption log 30).
On a closed or failed session a step changes no register but the state, which `Close` sets, short of a reset: not the stream
pulled and its status either (R23, R24). -/
def Obligations.StepKeepsTheInvariant : Prop :=
  (∀ s t, StateInv s → step s = .next t → StateInv t) ∧
  ∀ s t, s.st.runningState = .closed ∨ (∃ k, s.st.runningState = .error k) → step s = .next t →
    t.st = .reset ∨
    ((t.st = s.st ∨ t.st = { s.st with runningState := .closed }) ∧
      t.IN = s.IN ∧ t.inLen = s.inLen ∧ t.srcEOF = s.srcEOF ∧ t.srcFail = s.srcFail)

/-- R34: every step keeps the ring buffer a mirror of the output history. -/
def Obligations.StepKeepsTheRingMirror : Prop :=
  ∀ s t, StateInv s → RingInv s → step s = .next t → RingInv t

/-- R41: the state stays, or changes as a row of R41's table says, under that row's condition. -/
def Obligations.OnlyLegalTransfers : Prop :=
  ∀ s t, StateInv s → step s = .next t → t.st.runningState = s.st.runningState ∨ Transfer s.st t.st

/-- R386, R387: what is produced and not delivered stays within the lap of the ring, or 36 bytes past it while it is
delivered. That the bound is the end of the lap in eager mode too is assumption log 26's reading of R386. -/
def Obligations.OutputStaysBounded : Prop :=
  (∀ s t, StateInv s → RingInv s → BoundedInv s → step s = .next t → BoundedInv t) ∧
  ∀ st : DecoderState, st.Bounded → st.pos - st.flushed ≤ st.RS + 36

/-- R26, R286, R324, R347, R373: a meta-block produces exactly its length: what a command still has to produce always fits,
and inside a call every byte produced is counted once. -/
def Obligations.BlockLengthIsAccounted : Prop :=
  ∀ s t, StateInv s → AccountedInv s → step s = .next t →
    AccountedInv t ∧
    (s.inCall = true → s.st.runningState ≠ .metablockHeader → s.st.runningState ≠ .metadata →
      t.st.H.length + t.st.metaBlockLength = s.st.H.length + s.st.metaBlockLength)

/-- R24, R73, R389: short of a reset, the stream pulled, the history and the output only grow. -/
def Obligations.HistoryOnlyGrows : Prop :=
  ∀ s t, StateInv s → step s = .next t →
    t.st = .reset ∨
    (∃ xs bs os, t.IN = s.IN ++ xs ∧ t.st.H = s.st.H ++ bs ∧ t.OUT = s.OUT ++ os ∧ s.base.bitpos ≤ t.st.bitpos)

/-- R22, R25, R44: once the stream header is read, nothing but a reset changes the configuration, the window or the
compound dictionary; the build's parameters never change. -/
def Obligations.SetupIsFixed : Prop :=
  ∀ s t, StateInv s → SetupInv s → step s = .next t →
    SetupInv t ∧ t.params = s.params ∧ t.rom = s.rom ∧
    (s.st.runningState ≠ .uninitialized → s.st.runningState ≠ .initialized → SameSetup s.st t.st ∨ t.st = .reset)

/-- R43, R156, R388, R392, R405: how a call ends, and that the status values keep it: short of input, with the registers
where the element step began, only while the source has not ended; short of room, only with the buffer full and bytes left;
done, only at the end of the stream; or with an error, which stays. The count it answers is how many bytes the host's buffer
holds (`HOSTBUF` as a list: assumption log 19). -/
def Obligations.HowACallEnds : Prop :=
  ∀ s t, StateInv s → s.inCall = true → step s = .next t → t.inCall = false →
    t.HOSTBUF.length = t.bytesWritten ∧
    ((s.srcEOF = false ∧ t.st = { s.base with field := .start } ∧
      t.result = .decompressed s.base.outCount .needMoreInput ∧ t.report = some ⟨s.base.outCount, .needMoreInput⟩) ∨
    (t.st.runningState = .writeOutput ∧ t.st.outCap = 0 ∧ t.st.flushed < t.st.pos ∧
      t.result = .decompressed t.st.outCount .needMoreOutput ∧ t.report = some ⟨t.st.outCount, .needMoreOutput⟩) ∨
    (t.st.runningState = .finished ∧ s.srcEOF = true ∧ t.st.bitpos = 8 * t.inLen ∧
      t.result = .decompressed t.st.outCount .done ∧ t.report = some ⟨t.st.outCount, .done⟩) ∨
    ∃ k, t.st.runningState = .error k ∧ t.result = .decompressed t.st.outCount (.error k) ∧
      t.report = some ⟨t.st.outCount, .error k⟩)

/-- R12, R440: errors are precise: where a step of a call fails, every register but the state tag is where the element step
began, and nothing is delivered. -/
def Obligations.ErrorsArePrecise : Prop :=
  ∀ s t k, StateInv s → s.inCall = true → step s = .next t → t.st.runningState = .error k →
    t.st = { s.base with runningState := .error k, field := .start } ∧ t.ckpt = none ∧ t.inCall = false ∧
    t.OUT = s.OUT ∧ t.HOSTBUF = s.HOSTBUF ∧ t.IN = s.IN ∧ t.result = .decompressed s.base.outCount (.error k)

/-- R71, R201, R409: from a control position whose tables are in place no step stops. -/
def Obligations.ReadyPositionsDoNotStop : Prop :=
  ∀ s, s.inCall = true → s.st.Ready → ∃ t, step s = .next t

/-! ## The hidden bit reader -/

/-- R46, R160: the accumulator and input ring of the hidden bit reader refine the stream: after a refill a field of up to
40 bits has the stream's value, and the registers stand for the stream after it. -/
def Obligations.BitReaderRefinesTheStream : Prop :=
  ∀ (r : BitReader) (bs : List Byte) (bitpos n : Nat), r.Represents bs bitpos → n ≤ 40 →
    (r.reload.readField n).1 = streamValue bs bitpos % 2 ^ n ∧
    (r.reload.readField n).2.Represents bs (bitpos + n)
end

