-- ==== Sys2Proof/Laws/Rows.lean ====
section
/-! SUPPORT. The rows of one family by their number: what `exec` runs for each, so that no proof takes the 347 constructors
apart. -/

namespace Sys2Proof.Laws

open Sys2Proof.Machine

theorem exec_of_wbits {wb : Nat} {i : Instr} (h : wbitsInstr wb = some i) (s : State) :
    exec i s = .next (s.setWindow false wb) := by
  unfold wbitsInstr at h
  split at h <;> cases h <;> rfl

theorem exec_of_transform {n : Nat} {i : Instr} (h : transformInstr n = some i) (s : State) :
    exec i s = .next (s.emitWord n) := by
  have hn : n < 121 := (List.getElem?_eq_some_iff.mp h).1
  interval_cases n <;> exact Option.some.inj h ▸ rfl

theorem exec_of_blen {c x : Nat} {i : Instr} (h : blenInstr c x = some i) (s : State) :
    exec i s = .next (s.blockCountCode c x) := by
  obtain ⟨r, hr, rfl⟩ := Option.map_eq_some_iff.mp h
  have hc : c < 26 := (List.getElem?_eq_some_iff.mp hr).1
  interval_cases c <;> exact Option.some.inj hr ▸ rfl

theorem exec_of_inslen {c x : Nat} {i : Instr} (h : inslenInstr c x = some i) (s : State) :
    exec i s = .next (s.insertLengthCode c x) := by
  obtain ⟨r, hr, rfl⟩ := Option.map_eq_some_iff.mp h
  have hc : c < 24 := (List.getElem?_eq_some_iff.mp hr).1
  interval_cases c <;> exact Option.some.inj hr ▸ rfl

theorem exec_of_copylen {c x : Nat} {i : Instr} (h : copylenInstr c x = some i) (s : State) :
    exec i s = .next (s.copyLengthCode c x) := by
  obtain ⟨r, hr, rfl⟩ := Option.map_eq_some_iff.mp h
  have hc : c < 24 := (List.getElem?_eq_some_iff.mp hr).1
  interval_cases c <;> exact Option.some.inj hr ▸ rfl

theorem exec_of_cmapRun {c x : Nat} {i : Instr} (h : cmapRunInstr c x = some i) (s : State) :
    exec i s = .next (s.mapRun c x) := by
  unfold cmapRunInstr at h
  split at h
  · cases h
  · obtain ⟨r, hr, rfl⟩ := Option.map_eq_some_iff.mp h
    have hc : c - 1 < 16 := (List.getElem?_eq_some_iff.mp hr).1
    obtain ⟨d, rfl⟩ : ∃ d, c = d + 1 := ⟨c - 1, by omega⟩
    rw [Nat.add_sub_cancel] at hc hr
    interval_cases d <;> exact Option.some.inj hr ▸ rfl

theorem exec_of_varlen8 {n x : Nat} {i : Instr} (h : varlen8Instr n x = some i) (s : State) :
    exec i s = .next (s.varlen8 (2 ^ n + 1 + x)) := by
  unfold varlen8Instr at h
  split at h
  · cases h
  · obtain ⟨r, hr, rfl⟩ := Option.map_eq_some_iff.mp h
    have hc : n - 1 < 7 := (List.getElem?_eq_some_iff.mp hr).1
    obtain ⟨d, rfl⟩ : ∃ d, n = d + 1 := ⟨n - 1, by omega⟩
    rw [Nat.add_sub_cancel] at hc hr
    interval_cases d <;> exact Option.some.inj hr ▸ rfl

theorem exec_of_clsym {c : Nat} {i : Instr} (h : clsymInstr c = some i) (s : State) :
    c < 16 ∧ exec i s = .next (s.symbolLength c) := by
  have hc : c < 16 := (List.getElem?_eq_some_iff.mp h).1
  refine ⟨hc, ?_⟩
  interval_cases c <;> exact Option.some.inj h ▸ rfl

theorem exec_of_cmd {c : Nat} {i : Instr} (h : cmdInstr c = some i) (s : State) :
    c < 704 ∧ exec i s = .next (s.command c) := by
  obtain ⟨r, hr, rfl⟩ := Option.map_eq_some_iff.mp h
  have hc : c / 64 < 11 := (List.getElem?_eq_some_iff.mp hr).1
  refine ⟨by omega, ?_⟩
  generalize c / 64 = k at hc hr
  interval_cases k <;> exact Option.some.inj hr ▸ rfl

theorem exec_of_distShort {n : Nat} {i : Instr} (h : distShortInstr n = some i) (s : State) :
    exec i s = .next (s.shortCode n) := by
  have hc : n < 16 := (List.getElem?_eq_some_iff.mp h).1
  interval_cases n <;> exact Option.some.inj h ▸ rfl

theorem exec_of_cllen (p : Nat) (s : State) : ∃ v ≤ 5, exec (cllenRow p).2 s = .next (s.codeLengthLength v) := by
  unfold cllenRow
  split
  · exact ⟨0, by decide, rfl⟩
  · exact ⟨4, by decide, rfl⟩
  · exact ⟨3, by decide, rfl⟩
  · split
    · exact ⟨2, by decide, rfl⟩
    · split
      · exact ⟨1, by decide, rfl⟩
      · exact ⟨5, by decide, rfl⟩

/-- What `exec` runs for the command of code `c` (R400). -/
theorem exec_of_host {c cap : Nat} {src : List SourceAnswer} {chunk : List Byte} {i : Instr}
    (h : hostInstr c src chunk cap = some i) :
    i = .reset ∨ i = .init src ∨ i = .enableLargeWindow ∨ i = .enableEagerOutput ∨
      i = .attachDictionaryChunk chunk ∨ i = .decompress cap ∨ i = .close := by
  unfold hostInstr at h
  split at h <;> cases h <;> simp

end Sys2Proof.Laws
end

