-- ==== Sys2Proof/Laws/Effects.lean ====
section
/-! SUPPORT. What reading one element can do: `Effect s c t` lists, for each element `c`, the shared operations its rows
run; `effect_of_decode` says that a row the decoder answers completes with one of them. -/

namespace Sys2Proof.Laws

open Sys2Proof.Machine

theorem bits_ok {w : Window} {p n m : Nat} {k : Nat → Read} {i : Instr} (h : w.bits p n k = .ok i m) :
    p + n ≤ w.avail ∧ k (w.field p n) = .ok i m := by
  unfold Window.bits at h
  split at h
  · exact ⟨‹_›, h⟩
  · split at h <;> cases h

theorem sym_ok {w : Window} {p m : Nat} {T : HuffmanTable} {k : Nat → Nat → Read} {i : Instr}
    (h : w.sym p T k = .ok i m) :
    ∃ s n, T.lookup (w.field p 15) = some (s, n) ∧ p + n ≤ w.avail ∧ k s (p + n) = .ok i m := by
  unfold Window.sym at h
  split at h
  · cases h
  · split at h
    · cases h
    · split at h
      · exact ⟨_, _, ‹_›, ‹_›, h⟩
      · split at h <;> cases h

theorem ofOption_ok {o : Option Instr} {n m : Nat} {i : Instr} (h : Read.ofOption o n = .ok i m) :
    o = some i ∧ n = m := by
  cases o with
  | none => cases h
  | some j => cases h; exact ⟨rfl, rfl⟩

theorem field_lt (w : Window) (p n : Nat) : w.field p n < 2 ^ n := Nat.mod_lt _ (Nat.two_pow_pos n)

/-- What the rows of element `c` do to `s`, the state in which the element's bits have been consumed. -/
inductive Effect (s : State) : Ctx → State → Prop
  | reset {src chunk cap} : Effect s (.hostCommand src chunk cap) s.hardReset
  | init {src chunk cap} : Effect s (.hostCommand src chunk cap)
      (s.commandIn .uninitialized .doubleInitialization (State.initSession src))
  | enableLargeWindow {src chunk cap} : Effect s (.hostCommand src chunk cap)
      (s.commandIn .initialized .invalidRuntimeStateTransition State.allowLargeWindow)
  | enableEagerOutput {src chunk cap} : Effect s (.hostCommand src chunk cap)
      (s.commandIn .initialized .invalidRuntimeStateTransition State.setEager)
  | attach {src chunk cap} : Effect s (.hostCommand src chunk cap)
      (s.commandIn .initialized .invalidRuntimeStateTransition (State.attachChunk chunk))
  | decompress {src chunk cap} : Effect s (.hostCommand src chunk cap) (s.beginCall cap)
  | close {src chunk cap} : Effect s (.hostCommand src chunk cap) s.closeSession
  | window {large} (wb : Nat) (h : 10 ≤ wb ∧ wb ≤ 24) : Effect s (.streamHeader large) (s.setWindow false wb)
  | largeWindow (wb : Nat) : Effect s (.streamHeader true) (s.setLargeWindow wb)
  | reservedWindow : Effect s (.streamHeader false) (s.raise .corruptWindowBits)
  | isLast (a : Bool) : Effect s .isLast (s.headerIsLast a)
  | isLastEmpty (a : Bool) : Effect s .isLastEmpty (s.headerIsLastEmpty a)
  | mnibbles (n : Nat) (h : n < 4) : Effect s .mnibbles (s.headerNibbles n)
  | mlen {nn : Nat} (m : Nat) (hn : nn = 4 ∨ nn = 5 ∨ nn = 6) (h : m < 2 ^ (4 * nn)) :
      Effect s (.mlen nn) (s.headerLength nn m)
  | isUncompressed (a : Bool) : Effect s .isUncompressed (s.headerIsUncompressed a)
  | reserved : Effect s .reserved s.headerReserved
  | mskipbytes (n : Nat) (h : n < 4) : Effect s .mskipbytes (s.headerSkipBytes n)
  | mskiplen {nb : Nat} (k : Nat) (hn : nb = 1 ∨ nb = 2 ∨ nb = 3) (h : k < 2 ^ (8 * nb)) :
      Effect s (.mskiplen nb) (s.headerSkipLength nb k)
  | pad {width} : Effect s (.pad width) s.headerPadded
  | finalPad {width} : Effect s (.finalPad width) s.finalPadded
  | raw (b : Byte) : Effect s .raw (s.rawByte b)
  | skip : Effect s .skip s.skipByte
  | varlen8 (v : Nat) (h : 1 ≤ v ∧ v ≤ 256) : Effect s .varlen8 (s.varlen8 v)
  | nbltypes {v} : Effect s (.nbltypes v) (s.blockTypes v)
  | ntrees {v} : Effect s (.ntrees v) (s.mapTrees v)
  | npostfix (p : Nat) (h : p < 4) : Effect s .npostfix (s.postfixBits p)
  | ndirecthi (d : Nat) (h : d < 16) : Effect s .ndirecthi (s.directCodes d)
  | cmode (m : Nat) (h : m < 4) : Effect s .cmode (s.contextMode m)
  | rlemaxflag (a : Bool) : Effect s .rlemaxflag (s.rleFlag a)
  | rlemaxm1 (r : Nat) (h : r < 16) : Effect s .rlemaxm1 (s.rleMax r)
  | cmapZero {T r} : Effect s (.cmap T r) (s.mapEntry 0)
  | cmapValue {T r} (c : Nat) (h : r < c) (hT : ∃ v bits, T.lookup v = some (c, bits)) :
      Effect s (.cmap T r) (s.mapEntry (c - s.st.cmRleMax))
  | cmapRun {T r} (c x : Nat) (h : c ≤ r) (hx : x < 2 ^ c) : Effect s (.cmap T r) (s.mapRun c x)
  | imtf (a : Bool) : Effect s .imtf (s.mapTransform a)
  | hskip (n : Nat) (h : n < 4) : Effect s .hskip (s.codeStart n)
  | nsymm1 (n : Nat) (h : n < 4) : Effect s .nsymm1 (s.simpleCount n)
  | symbol {width} (x : Nat) (h : x < 2 ^ width) : Effect s (.symbol width) (s.simpleSymbol x)
  | treeselect (a : Bool) : Effect s .treeselect (s.simpleTree a)
  | cllen (v : Nat) (h : v ≤ 5) : Effect s .cllen (s.codeLengthLength v)
  | clsym {T} (c : Nat) (h : c < 16) : Effect s (.clsym T) (s.symbolLength c)
  | clsym16 {T} (x : Nat) (h : x < 4) : Effect s (.clsym T) (s.repeatLength s.st.prevCodeLen 2 x)
  | clsym17 {T} (x : Nat) (h : x < 8) : Effect s (.clsym T) (s.repeatLength 0 3 x)
  | btype {T} (t : Nat) (hT : ∃ v bits, T.lookup v = some (t, bits)) : Effect s (.btype T) (s.switchType t)
  | blen {T} (c x : Nat) (h : c < 26) (hx : x < 2 ^ tableAt blenXbits c) : Effect s (.blen T) (s.blockCountCode c x)
  | cmd {T} (c : Nat) (h : c < 704) : Effect s (.cmd T) (s.command c)
  | insLen {code} (x : Nat) (hx : x < 2 ^ tableAt insXbits code) : Effect s (.insLen code) (s.insertLengthCode code x)
  | copyLen {code} (x : Nat) (hx : x < 2 ^ tableAt copyXbits code) :
      Effect s (.copyLen code) (s.copyLengthCode code x)
  | lit {T} (b : Byte) : Effect s (.lit T) (s.literal b)
  | distImplicit : Effect s .distImplicit s.lastDistance
  | distShort {T np nd} (n : Nat) (h : n < 16) : Effect s (.dist T np nd) (s.shortCode n)
  | distDirect {T np nd} (sym : Nat) (h : 16 ≤ sym ∧ sym < 16 + nd) : Effect s (.dist T np nd) (s.directCode sym)
  | distLong {T np nd} (sym x : Nat) (h : 16 + nd ≤ sym) (hx : x < 2 ^ distExtraBits np nd sym) :
      Effect s (.dist T np nd) (s.longCode sym x)
  | transform {n} (h : n < 121) : Effect s (.transform n) (s.emitWord n)

/-- A row the decoder answers completes, with one of the effects of its element. -/
theorem effect_of_decode {c : Ctx} {w : Window} {i : Instr} {n : Nat} (h : decode c w = .ok i n) (s : State) :
    ∃ t, exec i s = .next t ∧ Effect s c t := by
  cases c <;> simp only [decode] at h
  case hostCommand src chunk cap =>
    obtain ⟨-, h⟩ := bits_ok h
    split at h
    · cases h
    · cases h
      rcases exec_of_host ‹_› with rfl | rfl | rfl | rfl | rfl | rfl | rfl
      · exact ⟨_, rfl, .reset⟩
      · exact ⟨_, rfl, .init⟩
      · exact ⟨_, rfl, .enableLargeWindow⟩
      · exact ⟨_, rfl, .enableEagerOutput⟩
      · exact ⟨_, rfl, .attach⟩
      · exact ⟨_, rfl, .decompress⟩
      · exact ⟨_, rfl, .close⟩
  case streamHeader large =>
    obtain ⟨-, h⟩ := bits_ok h
    split at h
    · cases h; exact ⟨_, rfl, .window 16 (by decide)⟩
    · obtain ⟨-, h⟩ := bits_ok h
      have hf := field_lt w 1 3
      split at h
      · obtain ⟨h, -⟩ := ofOption_ok h
        exact ⟨_, exec_of_wbits h s, .window _ (by omega)⟩
      · obtain ⟨-, h⟩ := bits_ok h
        have hf := field_lt w 4 3
        split at h
        · cases h; exact ⟨_, rfl, .window 17 (by decide)⟩
        · split at h
          · cases large
            · cases h; exact ⟨_, rfl, .reservedWindow⟩
            · simp only [if_true] at h
              obtain ⟨-, h⟩ := bits_ok h
              split at h
              · cases h
              · obtain ⟨-, h⟩ := bits_ok h
                cases h; exact ⟨_, rfl, .largeWindow _⟩
          · obtain ⟨h, -⟩ := ofOption_ok h
            exact ⟨_, exec_of_wbits h s, .window _ (by omega)⟩
  case isLast => obtain ⟨-, h⟩ := bits_ok h; cases h; exact ⟨_, rfl, .isLast _⟩
  case isLastEmpty => obtain ⟨-, h⟩ := bits_ok h; cases h; exact ⟨_, rfl, .isLastEmpty _⟩
  case mnibbles =>
    obtain ⟨-, h⟩ := bits_ok h
    split at h <;> cases h
    · exact ⟨_, rfl, .mnibbles 0 (by decide)⟩
    · exact ⟨_, rfl, .mnibbles 1 (by decide)⟩
    · exact ⟨_, rfl, .mnibbles 2 (by decide)⟩
    · exact ⟨_, rfl, .mnibbles 3 (by decide)⟩
  case mlen nn =>
    split at h
    · obtain ⟨-, h⟩ := bits_ok h; cases h; exact ⟨_, rfl, .mlen _ (by decide) (field_lt w 0 16)⟩
    · obtain ⟨-, h⟩ := bits_ok h; cases h; exact ⟨_, rfl, .mlen _ (by decide) (field_lt w 0 20)⟩
    · obtain ⟨-, h⟩ := bits_ok h; cases h; exact ⟨_, rfl, .mlen _ (by decide) (field_lt w 0 24)⟩
    · cases h
  case isUncompressed => obtain ⟨-, h⟩ := bits_ok h; cases h; exact ⟨_, rfl, .isUncompressed _⟩
  case reserved =>
    obtain ⟨-, h⟩ := bits_ok h
    split at h <;> cases h
    exact ⟨_, rfl, .reserved⟩
  case mskipbytes =>
    obtain ⟨-, h⟩ := bits_ok h
    split at h <;> cases h
    · exact ⟨_, rfl, .mskipbytes 0 (by decide)⟩
    · exact ⟨_, rfl, .mskipbytes 1 (by decide)⟩
    · exact ⟨_, rfl, .mskipbytes 2 (by decide)⟩
    · exact ⟨_, rfl, .mskipbytes 3 (by decide)⟩
  case mskiplen nb =>
    split at h
    · obtain ⟨-, h⟩ := bits_ok h; cases h; exact ⟨_, rfl, .mskiplen _ (by decide) (field_lt w 0 8)⟩
    · obtain ⟨-, h⟩ := bits_ok h; cases h; exact ⟨_, rfl, .mskiplen _ (by decide) (field_lt w 0 16)⟩
    · obtain ⟨-, h⟩ := bits_ok h; cases h; exact ⟨_, rfl, .mskiplen _ (by decide) (field_lt w 0 24)⟩
    · cases h
  case pad width =>
    obtain ⟨-, h⟩ := bits_ok h
    split at h <;> cases h
    exact ⟨_, rfl, .pad⟩
  case finalPad width =>
    obtain ⟨-, h⟩ := bits_ok h
    split at h <;> cases h
    exact ⟨_, rfl, .finalPad⟩
  case raw => obtain ⟨-, h⟩ := bits_ok h; cases h; exact ⟨_, rfl, .raw _⟩
  case skip => obtain ⟨-, h⟩ := bits_ok h; cases h; exact ⟨_, rfl, .skip⟩
  case varlen8 =>
    obtain ⟨-, h⟩ := bits_ok h
    split at h
    · cases h; exact ⟨_, rfl, .varlen8 1 (by decide)⟩
    · obtain ⟨-, h⟩ := bits_ok h
      have hn := field_lt w 1 3
      split at h
      · cases h; exact ⟨_, rfl, .varlen8 2 (by decide)⟩
      · obtain ⟨-, h⟩ := bits_ok h
        obtain ⟨h, -⟩ := ofOption_ok h
        have hx := field_lt w 4 (w.field 1 3)
        have h7 : 2 ^ w.field 1 3 ≤ 2 ^ 7 := Nat.pow_le_pow_right (by decide) (by omega)
        exact ⟨_, exec_of_varlen8 h s, .varlen8 _ (by omega)⟩
  case nbltypes v => cases h; exact ⟨_, rfl, .nbltypes⟩
  case ntrees v => cases h; exact ⟨_, rfl, .ntrees⟩
  case npostfix => obtain ⟨-, h⟩ := bits_ok h; cases h; exact ⟨_, rfl, .npostfix _ (field_lt w 0 2)⟩
  case ndirecthi => obtain ⟨-, h⟩ := bits_ok h; cases h; exact ⟨_, rfl, .ndirecthi _ (field_lt w 0 4)⟩
  case cmode =>
    obtain ⟨-, h⟩ := bits_ok h
    split at h <;> cases h
    · exact ⟨_, rfl, .cmode 0 (by decide)⟩
    · exact ⟨_, rfl, .cmode 1 (by decide)⟩
    · exact ⟨_, rfl, .cmode 2 (by decide)⟩
    · exact ⟨_, rfl, .cmode 3 (by decide)⟩
  case rlemaxflag => obtain ⟨-, h⟩ := bits_ok h; cases h; exact ⟨_, rfl, .rlemaxflag _⟩
  case rlemaxm1 => obtain ⟨-, h⟩ := bits_ok h; cases h; exact ⟨_, rfl, .rlemaxm1 _ (field_lt w 0 4)⟩
  case cmap T r =>
    obtain ⟨c, n, hT, -, h⟩ := sym_ok h
    split at h
    · cases h; exact ⟨_, rfl, .cmapZero⟩
    · split at h
      · obtain ⟨-, h⟩ := bits_ok h
        obtain ⟨h, -⟩ := ofOption_ok h
        exact ⟨_, exec_of_cmapRun h s, .cmapRun _ _ ‹_› (field_lt w _ _)⟩
      · cases h; exact ⟨_, rfl, .cmapValue _ (by omega) ⟨_, _, hT⟩⟩
  case imtf => obtain ⟨-, h⟩ := bits_ok h; cases h; exact ⟨_, rfl, .imtf _⟩
  case hskip =>
    obtain ⟨-, h⟩ := bits_ok h
    split at h <;> cases h
    · exact ⟨_, rfl, .hskip 0 (by decide)⟩
    · exact ⟨_, rfl, .hskip 1 (by decide)⟩
    · exact ⟨_, rfl, .hskip 2 (by decide)⟩
    · exact ⟨_, rfl, .hskip 3 (by decide)⟩
  case nsymm1 =>
    obtain ⟨-, h⟩ := bits_ok h
    split at h <;> cases h
    · exact ⟨_, rfl, .nsymm1 0 (by decide)⟩
    · exact ⟨_, rfl, .nsymm1 1 (by decide)⟩
    · exact ⟨_, rfl, .nsymm1 2 (by decide)⟩
    · exact ⟨_, rfl, .nsymm1 3 (by decide)⟩
  case symbol width => obtain ⟨-, h⟩ := bits_ok h; cases h; exact ⟨_, rfl, .symbol _ (field_lt w 0 _)⟩
  case treeselect => obtain ⟨-, h⟩ := bits_ok h; cases h; exact ⟨_, rfl, .treeselect _⟩
  case cllen =>
    split at h
    · cases h
    · split at h
      · cases h
        obtain ⟨v, hv, he⟩ := exec_of_cllen (w.field 0 4) s
        exact ⟨_, he, .cllen v hv⟩
      · cases h
  case clsym T =>
    obtain ⟨c, n, -, -, h⟩ := sym_ok h
    split at h
    · obtain ⟨-, h⟩ := bits_ok h; cases h; exact ⟨_, rfl, .clsym16 _ (field_lt w _ 2)⟩
    · split at h
      · obtain ⟨-, h⟩ := bits_ok h; cases h; exact ⟨_, rfl, .clsym17 _ (field_lt w _ 3)⟩
      · obtain ⟨h, -⟩ := ofOption_ok h
        obtain ⟨hc, he⟩ := exec_of_clsym h s
        exact ⟨_, he, .clsym _ hc⟩
  case btype T =>
    obtain ⟨c, n, hT, -, h⟩ := sym_ok h
    split at h <;> cases h <;> exact ⟨_, rfl, .btype _ ⟨_, _, hT⟩⟩
  case blen T =>
    obtain ⟨c, n, -, -, h⟩ := sym_ok h
    obtain ⟨-, h⟩ := bits_ok h
    obtain ⟨h, -⟩ := ofOption_ok h
    refine ⟨_, exec_of_blen h s, .blen _ _ ?_ (field_lt w _ _)⟩
    obtain ⟨r, hr, -⟩ := Option.map_eq_some_iff.mp h
    exact (List.getElem?_eq_some_iff.mp hr).1
  case cmd T =>
    obtain ⟨c, n, -, -, h⟩ := sym_ok h
    obtain ⟨h, -⟩ := ofOption_ok h
    obtain ⟨hc, he⟩ := exec_of_cmd h s
    exact ⟨_, he, .cmd _ hc⟩
  case insLen code =>
    obtain ⟨-, h⟩ := bits_ok h
    obtain ⟨h, -⟩ := ofOption_ok h
    exact ⟨_, exec_of_inslen h s, .insLen _ (field_lt w _ _)⟩
  case copyLen code =>
    obtain ⟨-, h⟩ := bits_ok h
    obtain ⟨h, -⟩ := ofOption_ok h
    exact ⟨_, exec_of_copylen h s, .copyLen _ (field_lt w _ _)⟩
  case lit T =>
    obtain ⟨c, n, -, -, h⟩ := sym_ok h
    split at h <;> cases h
    exact ⟨_, rfl, .lit _⟩
  case distImplicit => cases h; exact ⟨_, rfl, .distImplicit⟩
  case dist T np nd =>
    obtain ⟨c, n, -, -, h⟩ := sym_ok h
    split at h
    · obtain ⟨h, -⟩ := ofOption_ok h
      exact ⟨_, exec_of_distShort h s, .distShort _ ‹_›⟩
    · split at h
      · cases h; exact ⟨_, rfl, .distDirect _ (by omega)⟩
      · obtain ⟨-, h⟩ := bits_ok h; cases h; exact ⟨_, rfl, .distLong _ _ (by omega) (field_lt w _ _)⟩
  case transform n =>
    obtain ⟨h, -⟩ := ofOption_ok h
    exact ⟨_, exec_of_transform h s, .transform (List.getElem?_eq_some_iff.mp h).1⟩

end Sys2Proof.Laws
end

