-- ==== Sys2Proof/Laws/Memory.lean ====
section
/-! SUPPORT. The laws of byte memories: every operation keeps the canonical form; a read after a write (R71, R94). -/

namespace Sys2Proof.Laws

open Sys2Proof.Machine

theorem Memory.wf_nil : Memory.wf [] := ⟨List.Pairwise.nil, by simp⟩

theorem Memory.wf_tail {p : Host.Cell} {m : Memory} (h : Memory.wf (p :: m)) : Memory.wf m :=
  ⟨(List.pairwise_cons.mp h.1).2, fun q hq => h.2 q (List.mem_cons_of_mem p hq)⟩

theorem Memory.wf_cons {p : Host.Cell} {m : Memory} (hm : Memory.wf m) (hlt : ∀ q ∈ m, p.1 < q.1) (hp : p.2 ≠ 0) :
    Memory.wf (p :: m) := by
  refine ⟨List.pairwise_cons.mpr ⟨hlt, hm.1⟩, ?_⟩
  intro q hq
  rcases List.mem_cons.mp hq with rfl | hq
  · exact hp
  · exact hm.2 q hq

theorem Memory.head_lt {p : Host.Cell} {m : Memory} (h : Memory.wf (p :: m)) : ∀ q ∈ m, p.1 < q.1 :=
  (List.pairwise_cons.mp h.1).1

theorem Memory.read_of_lt {m : Memory} {a : Nat} (h : ∀ q ∈ m, a < q.1) : Memory.read m a = 0 := by
  induction m with
  | nil => rfl
  | cons p m ih =>
    have hp := h p List.mem_cons_self
    unfold Memory.read
    rw [if_neg (by omega)]
    exact ih fun q hq => h q (List.mem_cons_of_mem p hq)

/-- A write changes addresses only to the one written or one already listed. -/
theorem Memory.mem_write {m : Memory} {a : Nat} {v : Byte} {q : Host.Cell} (hq : q ∈ Memory.write m a v) :
    q = (a, v) ∨ q ∈ m := by
  induction m with
  | nil =>
    unfold Memory.write at hq
    split at hq
    · cases hq
    · exact .inl (by simpa using hq)
  | cons p m ih =>
    unfold Memory.write at hq
    split at hq
    · split at hq
      · exact .inr hq
      · rcases List.mem_cons.mp hq with rfl | hq
        · exact .inl rfl
        · exact .inr hq
    · split at hq
      · split at hq
        · exact .inr (List.mem_cons_of_mem _ hq)
        · rcases List.mem_cons.mp hq with rfl | hq
          · exact .inl rfl
          · exact .inr (List.mem_cons_of_mem _ hq)
      · rcases List.mem_cons.mp hq with rfl | hq
        · exact .inr List.mem_cons_self
        · rcases ih hq with h | h
          · exact .inl h
          · exact .inr (List.mem_cons_of_mem _ h)

theorem Memory.wf_write {m : Memory} (h : Memory.wf m) (a : Nat) (v : Byte) : Memory.wf (Memory.write m a v) := by
  induction m with
  | nil =>
    unfold Memory.write
    split
    · exact h
    · exact Memory.wf_cons h (by simp) ‹_›
  | cons p m ih =>
    have ht := Memory.wf_tail h
    have hlt := Memory.head_lt h
    have hp := h.2 p List.mem_cons_self
    unfold Memory.write
    split
    · split
      · exact h
      · refine Memory.wf_cons h ?_ ‹_›
        intro q hq
        rcases List.mem_cons.mp hq with rfl | hq
        · exact ‹a < p.1›
        · exact Nat.lt_trans ‹a < p.1› (hlt q hq)
    · split
      · split
        · exact ht
        · exact Memory.wf_cons ht (fun q hq => by have := hlt q hq; omega) ‹_›
      · refine Memory.wf_cons (ih ht) ?_ hp
        intro q hq
        rcases Memory.mem_write hq with rfl | hq
        · show p.1 < a; omega
        · exact hlt q hq

/-- A read after a write. -/
theorem Memory.read_write {m : Memory} (h : Memory.wf m) (a b : Nat) (v : Byte) :
    Memory.read (Memory.write m a v) b = if b = a then v else Memory.read m b := by
  induction m with
  | nil =>
    unfold Memory.write
    split
    · subst v; simp [Memory.read]
    · simp only [Memory.read, eq_comm]
  | cons p m ih =>
    obtain ⟨k, c⟩ := p
    have hlt := Memory.head_lt h
    unfold Memory.write
    split
    · have ha : Memory.read ((k, c) :: m) a = 0 := Memory.read_of_lt fun q hq => by
        rcases List.mem_cons.mp hq with rfl | hq
        · assumption
        · exact Nat.lt_trans ‹a < k› (hlt q hq)
      split
      · subst v
        split
        · subst b; exact ha
        · rfl
      · simp only [Memory.read, eq_comm (a := a)]
    · split
      · subst a
        split
        · subst v
          have hk : Memory.read m k = 0 := Memory.read_of_lt hlt
          by_cases hb : b = k
          · subst b; rw [if_pos rfl]; exact hk
          · rw [if_neg hb]; simp only [Memory.read]; rw [if_neg (fun e => hb e.symm)]
        · simp only [Memory.read]
          by_cases hb : k = b
          · rw [if_pos hb, if_pos hb.symm]
          · rw [if_neg hb, if_neg (fun e => hb e.symm), if_neg hb]
      · simp only [Memory.read]
        rw [ih (Memory.wf_tail h)]
        by_cases hk : k = b
        · rw [if_pos hk, if_pos hk, if_neg (by omega)]
        · rw [if_neg hk, if_neg hk]

theorem Memory.wf_fill {m : Memory} (h : Memory.wf m) (a n : Nat) (v : Byte) : Memory.wf (Memory.fill m a n v) := by
  induction n with
  | zero => exact h
  | succ n ih => exact Memory.wf_write ih _ _

/-- A read after a fill. -/
theorem Memory.read_fill {m : Memory} (h : Memory.wf m) (a n b : Nat) (v : Byte) :
    Memory.read (Memory.fill m a n v) b = if a ≤ b ∧ b < a + n then v else Memory.read m b := by
  induction n with
  | zero => rw [if_neg (by omega)]; rfl
  | succ n ih =>
    show Memory.read (Memory.write (Memory.fill m a n v) (a + n) v) b = _
    rw [Memory.read_write (Memory.wf_fill h a n v), ih]
    by_cases h1 : b = a + n
    · rw [if_pos h1, if_pos (by omega)]
    · rw [if_neg h1]
      by_cases h2 : a ≤ b ∧ b < a + n
      · rw [if_pos h2, if_pos (by omega)]
      · rw [if_neg h2, if_neg (by omega)]

theorem Memory.wf_writeAll {m : Memory} (h : Memory.wf m) (a : Nat) (bs : List Byte) :
    Memory.wf (Memory.writeAll m a bs) := by
  induction bs generalizing m a with
  | nil => exact h
  | cons b bs ih => exact ih (Memory.wf_write h a b) (a + 1)

/-- A read after a write of several bytes. -/
theorem Memory.read_writeAll {m : Memory} (h : Memory.wf m) (a b : Nat) (bs : List Byte) :
    Memory.read (Memory.writeAll m a bs) b =
      if a ≤ b ∧ b < a + bs.length then bs.getD (b - a) 0 else Memory.read m b := by
  induction bs generalizing m a with
  | nil => rw [if_neg (by simp)]; rfl
  | cons c bs ih =>
    show Memory.read (Memory.writeAll (Memory.write m a c) (a + 1) bs) b = _
    rw [ih (Memory.wf_write h a c), Memory.read_write h]
    simp only [List.length_cons]
    by_cases h1 : b = a
    · subst b; rw [if_neg (by omega), if_pos rfl, if_pos (by omega)]; simp
    · rw [if_neg h1]
      by_cases h2 : a + 1 ≤ b ∧ b < a + 1 + bs.length
      · rw [if_pos h2, if_pos (by omega)]
        obtain ⟨d, rfl⟩ : ∃ d, b = a + 1 + d := ⟨b - (a + 1), by omega⟩
        rw [show a + 1 + d - (a + 1) = d by omega, show a + 1 + d - a = d + 1 by omega]
        simp
      · rw [if_neg h2, if_neg (by omega)]

@[simp] theorem Memory.length_toBytes (m : Memory) (n : Nat) : (Memory.toBytes m n).length = n := by
  simp [Memory.toBytes]

end Sys2Proof.Laws
end

