-- ==== Sys2Proof/Laws/State.lean ====
section
/-! SUPPORT. What each shared update leaves of each field: one lemma per field and update, so that no proof unfolds a record
update. -/

namespace Sys2Proof.Laws

open Sys2Proof.Machine

/-! ## Updates of the machine -/

@[simp] theorem advance_st (s : State) (n : Nat) : (s.advance n).st = { s.st with bitpos := s.st.bitpos + n } := rfl
@[simp] theorem advance_ckpt (s : State) (n : Nat) : (s.advance n).ckpt = some s.base := rfl
@[simp] theorem advance_IN (s : State) (n : Nat) : (s.advance n).IN = s.IN := rfl
@[simp] theorem advance_inLen (s : State) (n : Nat) : (s.advance n).inLen = s.inLen := rfl
@[simp] theorem advance_srcEOF (s : State) (n : Nat) : (s.advance n).srcEOF = s.srcEOF := rfl
@[simp] theorem advance_srcFail (s : State) (n : Nat) : (s.advance n).srcFail = s.srcFail := rfl
@[simp] theorem advance_source (s : State) (n : Nat) : (s.advance n).source = s.source := rfl
@[simp] theorem advance_OUT (s : State) (n : Nat) : (s.advance n).OUT = s.OUT := rfl
@[simp] theorem advance_HOSTBUF (s : State) (n : Nat) : (s.advance n).HOSTBUF = s.HOSTBUF := rfl
@[simp] theorem advance_inCall (s : State) (n : Nat) : (s.advance n).inCall = s.inCall := rfl
@[simp] theorem advance_result (s : State) (n : Nat) : (s.advance n).result = s.result := rfl
@[simp] theorem advance_report (s : State) (n : Nat) : (s.advance n).report = s.report := rfl
@[simp] theorem advance_script (s : State) (n : Nat) : (s.advance n).script = s.script := rfl
@[simp] theorem advance_params (s : State) (n : Nat) : (s.advance n).params = s.params := rfl
@[simp] theorem advance_rom (s : State) (n : Nat) : (s.advance n).rom = s.rom := rfl

@[simp] theorem raise_st (s : State) (k : ErrorKind) :
    (s.raise k).st = { s.base with runningState := .error k, field := .start } := rfl
@[simp] theorem raise_ckpt (s : State) (k : ErrorKind) : (s.raise k).ckpt = none := rfl
@[simp] theorem raise_IN (s : State) (k : ErrorKind) : (s.raise k).IN = s.IN := rfl
@[simp] theorem raise_inLen (s : State) (k : ErrorKind) : (s.raise k).inLen = s.inLen := rfl
@[simp] theorem raise_srcEOF (s : State) (k : ErrorKind) : (s.raise k).srcEOF = s.srcEOF := rfl
@[simp] theorem raise_srcFail (s : State) (k : ErrorKind) : (s.raise k).srcFail = s.srcFail := rfl
@[simp] theorem raise_source (s : State) (k : ErrorKind) : (s.raise k).source = s.source := rfl
@[simp] theorem raise_OUT (s : State) (k : ErrorKind) : (s.raise k).OUT = s.OUT := rfl
@[simp] theorem raise_HOSTBUF (s : State) (k : ErrorKind) : (s.raise k).HOSTBUF = s.HOSTBUF := rfl
@[simp] theorem raise_inCall (s : State) (k : ErrorKind) : (s.raise k).inCall = false := rfl
@[simp] theorem raise_result (s : State) (k : ErrorKind) :
    (s.raise k).result = if s.inCall then .decompressed s.base.outCount (.error k) else .error k := rfl
@[simp] theorem raise_report (s : State) (k : ErrorKind) :
    (s.raise k).report = if s.inCall then some ⟨s.base.outCount, .error k⟩ else s.report := rfl
@[simp] theorem raise_script (s : State) (k : ErrorKind) : (s.raise k).script = s.script := rfl
@[simp] theorem raise_params (s : State) (k : ErrorKind) : (s.raise k).params = s.params := rfl
@[simp] theorem raise_rom (s : State) (k : ErrorKind) : (s.raise k).rom = s.rom := rfl

@[simp] theorem endCall_st (s : State) (x : Status) : (s.endCall x).st = s.st := rfl
@[simp] theorem endCall_ckpt (s : State) (x : Status) : (s.endCall x).ckpt = none := rfl
@[simp] theorem endCall_IN (s : State) (x : Status) : (s.endCall x).IN = s.IN := rfl
@[simp] theorem endCall_inLen (s : State) (x : Status) : (s.endCall x).inLen = s.inLen := rfl
@[simp] theorem endCall_srcEOF (s : State) (x : Status) : (s.endCall x).srcEOF = s.srcEOF := rfl
@[simp] theorem endCall_srcFail (s : State) (x : Status) : (s.endCall x).srcFail = s.srcFail := rfl
@[simp] theorem endCall_source (s : State) (x : Status) : (s.endCall x).source = s.source := rfl
@[simp] theorem endCall_OUT (s : State) (x : Status) : (s.endCall x).OUT = s.OUT := rfl
@[simp] theorem endCall_HOSTBUF (s : State) (x : Status) : (s.endCall x).HOSTBUF = s.HOSTBUF := rfl
@[simp] theorem endCall_inCall (s : State) (x : Status) : (s.endCall x).inCall = false := rfl
@[simp] theorem endCall_result (s : State) (x : Status) : (s.endCall x).result = .decompressed s.st.outCount x := rfl
@[simp] theorem endCall_report (s : State) (x : Status) : (s.endCall x).report = some ⟨s.st.outCount, x⟩ := rfl
@[simp] theorem endCall_script (s : State) (x : Status) : (s.endCall x).script = s.script := rfl
@[simp] theorem endCall_params (s : State) (x : Status) : (s.endCall x).params = s.params := rfl
@[simp] theorem endCall_rom (s : State) (x : Status) : (s.endCall x).rom = s.rom := rfl

@[simp] theorem suspend_st (s : State) : (s.suspend).st = { s.base with field := .start } := rfl
@[simp] theorem suspend_ckpt (s : State) : (s.suspend).ckpt = none := rfl
@[simp] theorem suspend_IN (s : State) : (s.suspend).IN = s.IN := rfl
@[simp] theorem suspend_inLen (s : State) : (s.suspend).inLen = s.inLen := rfl
@[simp] theorem suspend_srcEOF (s : State) : (s.suspend).srcEOF = s.srcEOF := rfl
@[simp] theorem suspend_srcFail (s : State) : (s.suspend).srcFail = s.srcFail := rfl
@[simp] theorem suspend_source (s : State) : (s.suspend).source = s.source := rfl
@[simp] theorem suspend_OUT (s : State) : (s.suspend).OUT = s.OUT := rfl
@[simp] theorem suspend_HOSTBUF (s : State) : (s.suspend).HOSTBUF = s.HOSTBUF := rfl
@[simp] theorem suspend_inCall (s : State) : (s.suspend).inCall = false := rfl
@[simp] theorem suspend_result (s : State) : (s.suspend).result = .decompressed s.base.outCount .needMoreInput := rfl
@[simp] theorem suspend_report (s : State) : (s.suspend).report = some ⟨s.base.outCount, .needMoreInput⟩ := rfl
@[simp] theorem suspend_script (s : State) : (s.suspend).script = s.script := rfl
@[simp] theorem suspend_params (s : State) : (s.suspend).params = s.params := rfl
@[simp] theorem suspend_rom (s : State) : (s.suspend).rom = s.rom := rfl

@[simp] theorem answer_st (s : State) (r : CommandResult) : (s.answer r).st = s.st := rfl
@[simp] theorem answer_ckpt (s : State) (r : CommandResult) : (s.answer r).ckpt = s.ckpt := rfl
@[simp] theorem answer_IN (s : State) (r : CommandResult) : (s.answer r).IN = s.IN := rfl
@[simp] theorem answer_inLen (s : State) (r : CommandResult) : (s.answer r).inLen = s.inLen := rfl
@[simp] theorem answer_srcEOF (s : State) (r : CommandResult) : (s.answer r).srcEOF = s.srcEOF := rfl
@[simp] theorem answer_srcFail (s : State) (r : CommandResult) : (s.answer r).srcFail = s.srcFail := rfl
@[simp] theorem answer_source (s : State) (r : CommandResult) : (s.answer r).source = s.source := rfl
@[simp] theorem answer_OUT (s : State) (r : CommandResult) : (s.answer r).OUT = s.OUT := rfl
@[simp] theorem answer_HOSTBUF (s : State) (r : CommandResult) : (s.answer r).HOSTBUF = s.HOSTBUF := rfl
@[simp] theorem answer_inCall (s : State) (r : CommandResult) : (s.answer r).inCall = s.inCall := rfl
@[simp] theorem answer_result (s : State) (r : CommandResult) : (s.answer r).result = r := rfl
@[simp] theorem answer_report (s : State) (r : CommandResult) : (s.answer r).report = r.reported s.report := rfl
@[simp] theorem answer_script (s : State) (r : CommandResult) : (s.answer r).script = s.script := rfl
@[simp] theorem answer_params (s : State) (r : CommandResult) : (s.answer r).params = s.params := rfl
@[simp] theorem answer_rom (s : State) (r : CommandResult) : (s.answer r).rom = s.rom := rfl

@[simp] theorem commit_st (s : State) : (s.commit).st = s.st := by unfold State.commit; split <;> simp_all
@[simp] theorem commit_ckpt (s : State) :
    (s.commit).ckpt = if s.st.field = .start then none else s.ckpt := by unfold State.commit; split <;> simp_all
@[simp] theorem commit_IN (s : State) : (s.commit).IN = s.IN := by unfold State.commit; split <;> simp_all
@[simp] theorem commit_inLen (s : State) : (s.commit).inLen = s.inLen := by unfold State.commit; split <;> simp_all
@[simp] theorem commit_srcEOF (s : State) : (s.commit).srcEOF = s.srcEOF := by unfold State.commit; split <;> simp_all
@[simp] theorem commit_srcFail (s : State) :
    (s.commit).srcFail = s.srcFail := by unfold State.commit; split <;> simp_all
@[simp] theorem commit_source (s : State) : (s.commit).source = s.source := by unfold State.commit; split <;> simp_all
@[simp] theorem commit_OUT (s : State) : (s.commit).OUT = s.OUT := by unfold State.commit; split <;> simp_all
@[simp] theorem commit_HOSTBUF (s : State) :
    (s.commit).HOSTBUF = s.HOSTBUF := by unfold State.commit; split <;> simp_all
@[simp] theorem commit_inCall (s : State) : (s.commit).inCall = s.inCall := by unfold State.commit; split <;> simp_all
@[simp] theorem commit_result (s : State) : (s.commit).result = s.result := by unfold State.commit; split <;> simp_all
@[simp] theorem commit_report (s : State) : (s.commit).report = s.report := by unfold State.commit; split <;> simp_all
@[simp] theorem commit_script (s : State) : (s.commit).script = s.script := by unfold State.commit; split <;> simp_all
@[simp] theorem commit_params (s : State) : (s.commit).params = s.params := by unfold State.commit; split <;> simp_all
@[simp] theorem commit_rom (s : State) : (s.commit).rom = s.rom := by unfold State.commit; split <;> simp_all

/-! ## Updates of the registers -/

@[simp] theorem emit_runningState (st : DecoderState) (b : Byte) : (st.emit b).runningState = st.runningState := rfl
@[simp] theorem emit_resumeState (st : DecoderState) (b : Byte) : (st.emit b).resumeState = st.resumeState := rfl
@[simp] theorem emit_bitpos (st : DecoderState) (b : Byte) : (st.emit b).bitpos = st.bitpos := rfl
@[simp] theorem emit_field (st : DecoderState) (b : Byte) : (st.emit b).field = st.field := rfl
@[simp] theorem emit_cfgLargeWindow (st : DecoderState) (b : Byte) :
    (st.emit b).cfgLargeWindow = st.cfgLargeWindow := rfl
@[simp] theorem emit_cfgEager (st : DecoderState) (b : Byte) : (st.emit b).cfgEager = st.cfgEager := rfl
@[simp] theorem emit_isLargeWindow (st : DecoderState) (b : Byte) : (st.emit b).isLargeWindow = st.isLargeWindow := rfl
@[simp] theorem emit_windowBits (st : DecoderState) (b : Byte) : (st.emit b).windowBits = st.windowBits := rfl
@[simp] theorem emit_maxBackwardDistance (st : DecoderState) (b : Byte) :
    (st.emit b).maxBackwardDistance = st.maxBackwardDistance := rfl
@[simp] theorem emit_isLast (st : DecoderState) (b : Byte) : (st.emit b).isLast = st.isLast := rfl
@[simp] theorem emit_isUncompressed (st : DecoderState) (b : Byte) :
    (st.emit b).isUncompressed = st.isUncompressed := rfl
@[simp] theorem emit_isMetadata (st : DecoderState) (b : Byte) : (st.emit b).isMetadata = st.isMetadata := rfl
@[simp] theorem emit_metaBlockLength (st : DecoderState) (b : Byte) :
    (st.emit b).metaBlockLength = st.metaBlockLength := rfl
@[simp] theorem emit_numBlockTypes (st : DecoderState) (b : Byte) : (st.emit b).numBlockTypes = st.numBlockTypes := rfl
@[simp] theorem emit_blockType (st : DecoderState) (b : Byte) : (st.emit b).blockType = st.blockType := rfl
@[simp] theorem emit_prevBlockType (st : DecoderState) (b : Byte) : (st.emit b).prevBlockType = st.prevBlockType := rfl
@[simp] theorem emit_blockLength (st : DecoderState) (b : Byte) : (st.emit b).blockLength = st.blockLength := rfl
@[simp] theorem emit_npostfix (st : DecoderState) (b : Byte) : (st.emit b).npostfix = st.npostfix := rfl
@[simp] theorem emit_ndirect (st : DecoderState) (b : Byte) : (st.emit b).ndirect = st.ndirect := rfl
@[simp] theorem emit_distAlphabetMax (st : DecoderState) (b : Byte) :
    (st.emit b).distAlphabetMax = st.distAlphabetMax := rfl
@[simp] theorem emit_distAlphabetLimit (st : DecoderState) (b : Byte) :
    (st.emit b).distAlphabetLimit = st.distAlphabetLimit := rfl
@[simp] theorem emit_contextModes (st : DecoderState) (b : Byte) : (st.emit b).contextModes = st.contextModes := rfl
@[simp] theorem emit_contextMapL (st : DecoderState) (b : Byte) : (st.emit b).contextMapL = st.contextMapL := rfl
@[simp] theorem emit_contextMapD (st : DecoderState) (b : Byte) : (st.emit b).contextMapD = st.contextMapD := rfl
@[simp] theorem emit_numLiteralTrees (st : DecoderState) (b : Byte) :
    (st.emit b).numLiteralTrees = st.numLiteralTrees := rfl
@[simp] theorem emit_numDistTrees (st : DecoderState) (b : Byte) : (st.emit b).numDistTrees = st.numDistTrees := rfl
@[simp] theorem emit_literalTrees (st : DecoderState) (b : Byte) : (st.emit b).literalTrees = st.literalTrees := rfl
@[simp] theorem emit_commandTrees (st : DecoderState) (b : Byte) : (st.emit b).commandTrees = st.commandTrees := rfl
@[simp] theorem emit_distanceTrees (st : DecoderState) (b : Byte) : (st.emit b).distanceTrees = st.distanceTrees := rfl
@[simp] theorem emit_blockTypeTree (st : DecoderState) (b : Byte) : (st.emit b).blockTypeTree = st.blockTypeTree := rfl
@[simp] theorem emit_blockLenTree (st : DecoderState) (b : Byte) : (st.emit b).blockLenTree = st.blockLenTree := rfl
@[simp] theorem emit_cmdCode (st : DecoderState) (b : Byte) : (st.emit b).cmdCode = st.cmdCode := rfl
@[simp] theorem emit_insertLength (st : DecoderState) (b : Byte) : (st.emit b).insertLength = st.insertLength := rfl
@[simp] theorem emit_copyLength (st : DecoderState) (b : Byte) : (st.emit b).copyLength = st.copyLength := rfl
@[simp] theorem emit_distImplicit (st : DecoderState) (b : Byte) : (st.emit b).distImplicit = st.distImplicit := rfl
@[simp] theorem emit_distContext (st : DecoderState) (b : Byte) : (st.emit b).distContext = st.distContext := rfl
@[simp] theorem emit_distSymbol (st : DecoderState) (b : Byte) : (st.emit b).distSymbol = st.distSymbol := rfl
@[simp] theorem emit_distance (st : DecoderState) (b : Byte) : (st.emit b).distance = st.distance := rfl
@[simp] theorem emit_maxDistance (st : DecoderState) (b : Byte) : (st.emit b).maxDistance = st.maxDistance := rfl
@[simp] theorem emit_j (st : DecoderState) (b : Byte) : (st.emit b).j = st.j := rfl
@[simp] theorem emit_distRing (st : DecoderState) (b : Byte) : (st.emit b).distRing = st.distRing := rfl
@[simp] theorem emit_distRbIdx (st : DecoderState) (b : Byte) : (st.emit b).distRbIdx = st.distRbIdx := rfl
@[simp] theorem emit_H (st : DecoderState) (b : Byte) : (st.emit b).H = st.H ++ [b] := rfl
@[simp] theorem emit_pos (st : DecoderState) (b : Byte) : (st.emit b).pos = st.pos + 1 := rfl
@[simp] theorem emit_flushed (st : DecoderState) (b : Byte) : (st.emit b).flushed = st.flushed := rfl
@[simp] theorem emit_RB (st : DecoderState) (b : Byte) : (st.emit b).RB = st.RB.write (st.pos % st.RS) b := rfl
@[simp] theorem emit_cdNumChunks (st : DecoderState) (b : Byte) : (st.emit b).cdNumChunks = st.cdNumChunks := rfl
@[simp] theorem emit_cdChunkOffsets (st : DecoderState) (b : Byte) :
    (st.emit b).cdChunkOffsets = st.cdChunkOffsets := rfl
@[simp] theorem emit_CD (st : DecoderState) (b : Byte) : (st.emit b).CD = st.CD := rfl
@[simp] theorem emit_cdBrIndex (st : DecoderState) (b : Byte) : (st.emit b).cdBrIndex = st.cdBrIndex := rfl
@[simp] theorem emit_cdBrOffset (st : DecoderState) (b : Byte) : (st.emit b).cdBrOffset = st.cdBrOffset := rfl
@[simp] theorem emit_cdBrLength (st : DecoderState) (b : Byte) : (st.emit b).cdBrLength = st.cdBrLength := rfl
@[simp] theorem emit_cdBrCopied (st : DecoderState) (b : Byte) : (st.emit b).cdBrCopied = st.cdBrCopied := rfl
@[simp] theorem emit_hphase (st : DecoderState) (b : Byte) : (st.emit b).hphase = st.hphase := rfl
@[simp] theorem emit_hsub (st : DecoderState) (b : Byte) : (st.emit b).hsub = st.hsub := rfl
@[simp] theorem emit_hidx (st : DecoderState) (b : Byte) : (st.emit b).hidx = st.hidx := rfl
@[simp] theorem emit_pcActive (st : DecoderState) (b : Byte) : (st.emit b).pcActive = st.pcActive := rfl
@[simp] theorem emit_pcPhase (st : DecoderState) (b : Byte) : (st.emit b).pcPhase = st.pcPhase := rfl
@[simp] theorem emit_pcAlphaMax (st : DecoderState) (b : Byte) : (st.emit b).pcAlphaMax = st.pcAlphaMax := rfl
@[simp] theorem emit_pcAlphaLimit (st : DecoderState) (b : Byte) : (st.emit b).pcAlphaLimit = st.pcAlphaLimit := rfl
@[simp] theorem emit_pcHskip (st : DecoderState) (b : Byte) : (st.emit b).pcHskip = st.pcHskip := rfl
@[simp] theorem emit_clIdx (st : DecoderState) (b : Byte) : (st.emit b).clIdx = st.clIdx := rfl
@[simp] theorem emit_clLengths (st : DecoderState) (b : Byte) : (st.emit b).clLengths = st.clLengths := rfl
@[simp] theorem emit_clSpace (st : DecoderState) (b : Byte) : (st.emit b).clSpace = st.clSpace := rfl
@[simp] theorem emit_clNum (st : DecoderState) (b : Byte) : (st.emit b).clNum = st.clNum := rfl
@[simp] theorem emit_codeLengths (st : DecoderState) (b : Byte) : (st.emit b).codeLengths = st.codeLengths := rfl
@[simp] theorem emit_symIdx (st : DecoderState) (b : Byte) : (st.emit b).symIdx = st.symIdx := rfl
@[simp] theorem emit_prevCodeLen (st : DecoderState) (b : Byte) : (st.emit b).prevCodeLen = st.prevCodeLen := rfl
@[simp] theorem emit_repeatCount (st : DecoderState) (b : Byte) : (st.emit b).repeatCount = st.repeatCount := rfl
@[simp] theorem emit_repeatCodeLen (st : DecoderState) (b : Byte) : (st.emit b).repeatCodeLen = st.repeatCodeLen := rfl
@[simp] theorem emit_space (st : DecoderState) (b : Byte) : (st.emit b).space = st.space := rfl
@[simp] theorem emit_cmNumTrees (st : DecoderState) (b : Byte) : (st.emit b).cmNumTrees = st.cmNumTrees := rfl
@[simp] theorem emit_cmRleMax (st : DecoderState) (b : Byte) : (st.emit b).cmRleMax = st.cmRleMax := rfl
@[simp] theorem emit_cmIdx (st : DecoderState) (b : Byte) : (st.emit b).cmIdx = st.cmIdx := rfl
@[simp] theorem emit_cmSize (st : DecoderState) (b : Byte) : (st.emit b).cmSize = st.cmSize := rfl
@[simp] theorem emit_cmTree (st : DecoderState) (b : Byte) : (st.emit b).cmTree = st.cmTree := rfl
@[simp] theorem emit_cmMap (st : DecoderState) (b : Byte) : (st.emit b).cmMap = st.cmMap := rfl
@[simp] theorem emit_outCap (st : DecoderState) (b : Byte) : (st.emit b).outCap = st.outCap := rfl
@[simp] theorem emit_outCount (st : DecoderState) (b : Byte) : (st.emit b).outCount = st.outCount := rfl

@[simp] theorem pushDistance_runningState (st : DecoderState) (d : Nat) :
    (st.pushDistance d).runningState = st.runningState := rfl
@[simp] theorem pushDistance_resumeState (st : DecoderState) (d : Nat) :
    (st.pushDistance d).resumeState = st.resumeState := rfl
@[simp] theorem pushDistance_bitpos (st : DecoderState) (d : Nat) : (st.pushDistance d).bitpos = st.bitpos := rfl
@[simp] theorem pushDistance_field (st : DecoderState) (d : Nat) : (st.pushDistance d).field = st.field := rfl
@[simp] theorem pushDistance_cfgLargeWindow (st : DecoderState) (d : Nat) :
    (st.pushDistance d).cfgLargeWindow = st.cfgLargeWindow := rfl
@[simp] theorem pushDistance_cfgEager (st : DecoderState) (d : Nat) : (st.pushDistance d).cfgEager = st.cfgEager := rfl
@[simp] theorem pushDistance_isLargeWindow (st : DecoderState) (d : Nat) :
    (st.pushDistance d).isLargeWindow = st.isLargeWindow := rfl
@[simp] theorem pushDistance_windowBits (st : DecoderState) (d : Nat) :
    (st.pushDistance d).windowBits = st.windowBits := rfl
@[simp] theorem pushDistance_maxBackwardDistance (st : DecoderState) (d : Nat) :
    (st.pushDistance d).maxBackwardDistance = st.maxBackwardDistance := rfl
@[simp] theorem pushDistance_isLast (st : DecoderState) (d : Nat) : (st.pushDistance d).isLast = st.isLast := rfl
@[simp] theorem pushDistance_isUncompressed (st : DecoderState) (d : Nat) :
    (st.pushDistance d).isUncompressed = st.isUncompressed := rfl
@[simp] theorem pushDistance_isMetadata (st : DecoderState) (d : Nat) :
    (st.pushDistance d).isMetadata = st.isMetadata := rfl
@[simp] theorem pushDistance_metaBlockLength (st : DecoderState) (d : Nat) :
    (st.pushDistance d).metaBlockLength = st.metaBlockLength := rfl
@[simp] theorem pushDistance_numBlockTypes (st : DecoderState) (d : Nat) :
    (st.pushDistance d).numBlockTypes = st.numBlockTypes := rfl
@[simp] theorem pushDistance_blockType (st : DecoderState) (d : Nat) :
    (st.pushDistance d).blockType = st.blockType := rfl
@[simp] theorem pushDistance_prevBlockType (st : DecoderState) (d : Nat) :
    (st.pushDistance d).prevBlockType = st.prevBlockType := rfl
@[simp] theorem pushDistance_blockLength (st : DecoderState) (d : Nat) :
    (st.pushDistance d).blockLength = st.blockLength := rfl
@[simp] theorem pushDistance_npostfix (st : DecoderState) (d : Nat) : (st.pushDistance d).npostfix = st.npostfix := rfl
@[simp] theorem pushDistance_ndirect (st : DecoderState) (d : Nat) : (st.pushDistance d).ndirect = st.ndirect := rfl
@[simp] theorem pushDistance_distAlphabetMax (st : DecoderState) (d : Nat) :
    (st.pushDistance d).distAlphabetMax = st.distAlphabetMax := rfl
@[simp] theorem pushDistance_distAlphabetLimit (st : DecoderState) (d : Nat) :
    (st.pushDistance d).distAlphabetLimit = st.distAlphabetLimit := rfl
@[simp] theorem pushDistance_contextModes (st : DecoderState) (d : Nat) :
    (st.pushDistance d).contextModes = st.contextModes := rfl
@[simp] theorem pushDistance_contextMapL (st : DecoderState) (d : Nat) :
    (st.pushDistance d).contextMapL = st.contextMapL := rfl
@[simp] theorem pushDistance_contextMapD (st : DecoderState) (d : Nat) :
    (st.pushDistance d).contextMapD = st.contextMapD := rfl
@[simp] theorem pushDistance_numLiteralTrees (st : DecoderState) (d : Nat) :
    (st.pushDistance d).numLiteralTrees = st.numLiteralTrees := rfl
@[simp] theorem pushDistance_numDistTrees (st : DecoderState) (d : Nat) :
    (st.pushDistance d).numDistTrees = st.numDistTrees := rfl
@[simp] theorem pushDistance_literalTrees (st : DecoderState) (d : Nat) :
    (st.pushDistance d).literalTrees = st.literalTrees := rfl
@[simp] theorem pushDistance_commandTrees (st : DecoderState) (d : Nat) :
    (st.pushDistance d).commandTrees = st.commandTrees := rfl
@[simp] theorem pushDistance_distanceTrees (st : DecoderState) (d : Nat) :
    (st.pushDistance d).distanceTrees = st.distanceTrees := rfl
@[simp] theorem pushDistance_blockTypeTree (st : DecoderState) (d : Nat) :
    (st.pushDistance d).blockTypeTree = st.blockTypeTree := rfl
@[simp] theorem pushDistance_blockLenTree (st : DecoderState) (d : Nat) :
    (st.pushDistance d).blockLenTree = st.blockLenTree := rfl
@[simp] theorem pushDistance_cmdCode (st : DecoderState) (d : Nat) : (st.pushDistance d).cmdCode = st.cmdCode := rfl
@[simp] theorem pushDistance_insertLength (st : DecoderState) (d : Nat) :
    (st.pushDistance d).insertLength = st.insertLength := rfl
@[simp] theorem pushDistance_copyLength (st : DecoderState) (d : Nat) :
    (st.pushDistance d).copyLength = st.copyLength := rfl
@[simp] theorem pushDistance_distImplicit (st : DecoderState) (d : Nat) :
    (st.pushDistance d).distImplicit = st.distImplicit := rfl
@[simp] theorem pushDistance_distContext (st : DecoderState) (d : Nat) :
    (st.pushDistance d).distContext = st.distContext := rfl
@[simp] theorem pushDistance_distSymbol (st : DecoderState) (d : Nat) :
    (st.pushDistance d).distSymbol = st.distSymbol := rfl
@[simp] theorem pushDistance_distance (st : DecoderState) (d : Nat) : (st.pushDistance d).distance = st.distance := rfl
@[simp] theorem pushDistance_maxDistance (st : DecoderState) (d : Nat) :
    (st.pushDistance d).maxDistance = st.maxDistance := rfl
@[simp] theorem pushDistance_j (st : DecoderState) (d : Nat) : (st.pushDistance d).j = st.j := rfl
@[simp] theorem pushDistance_distRbIdx (st : DecoderState) (d : Nat) :
    (st.pushDistance d).distRbIdx = st.distRbIdx + 1 := rfl
@[simp] theorem pushDistance_H (st : DecoderState) (d : Nat) : (st.pushDistance d).H = st.H := rfl
@[simp] theorem pushDistance_pos (st : DecoderState) (d : Nat) : (st.pushDistance d).pos = st.pos := rfl
@[simp] theorem pushDistance_flushed (st : DecoderState) (d : Nat) : (st.pushDistance d).flushed = st.flushed := rfl
@[simp] theorem pushDistance_RB (st : DecoderState) (d : Nat) : (st.pushDistance d).RB = st.RB := rfl
@[simp] theorem pushDistance_cdNumChunks (st : DecoderState) (d : Nat) :
    (st.pushDistance d).cdNumChunks = st.cdNumChunks := rfl
@[simp] theorem pushDistance_cdChunkOffsets (st : DecoderState) (d : Nat) :
    (st.pushDistance d).cdChunkOffsets = st.cdChunkOffsets := rfl
@[simp] theorem pushDistance_CD (st : DecoderState) (d : Nat) : (st.pushDistance d).CD = st.CD := rfl
@[simp] theorem pushDistance_cdBrIndex (st : DecoderState) (d : Nat) :
    (st.pushDistance d).cdBrIndex = st.cdBrIndex := rfl
@[simp] theorem pushDistance_cdBrOffset (st : DecoderState) (d : Nat) :
    (st.pushDistance d).cdBrOffset = st.cdBrOffset := rfl
@[simp] theorem pushDistance_cdBrLength (st : DecoderState) (d : Nat) :
    (st.pushDistance d).cdBrLength = st.cdBrLength := rfl
@[simp] theorem pushDistance_cdBrCopied (st : DecoderState) (d : Nat) :
    (st.pushDistance d).cdBrCopied = st.cdBrCopied := rfl
@[simp] theorem pushDistance_hphase (st : DecoderState) (d : Nat) : (st.pushDistance d).hphase = st.hphase := rfl
@[simp] theorem pushDistance_hsub (st : DecoderState) (d : Nat) : (st.pushDistance d).hsub = st.hsub := rfl
@[simp] theorem pushDistance_hidx (st : DecoderState) (d : Nat) : (st.pushDistance d).hidx = st.hidx := rfl
@[simp] theorem pushDistance_pcActive (st : DecoderState) (d : Nat) : (st.pushDistance d).pcActive = st.pcActive := rfl
@[simp] theorem pushDistance_pcPhase (st : DecoderState) (d : Nat) : (st.pushDistance d).pcPhase = st.pcPhase := rfl
@[simp] theorem pushDistance_pcAlphaMax (st : DecoderState) (d : Nat) :
    (st.pushDistance d).pcAlphaMax = st.pcAlphaMax := rfl
@[simp] theorem pushDistance_pcAlphaLimit (st : DecoderState) (d : Nat) :
    (st.pushDistance d).pcAlphaLimit = st.pcAlphaLimit := rfl
@[simp] theorem pushDistance_pcHskip (st : DecoderState) (d : Nat) : (st.pushDistance d).pcHskip = st.pcHskip := rfl
@[simp] theorem pushDistance_clIdx (st : DecoderState) (d : Nat) : (st.pushDistance d).clIdx = st.clIdx := rfl
@[simp] theorem pushDistance_clLengths (st : DecoderState) (d : Nat) :
    (st.pushDistance d).clLengths = st.clLengths := rfl
@[simp] theorem pushDistance_clSpace (st : DecoderState) (d : Nat) : (st.pushDistance d).clSpace = st.clSpace := rfl
@[simp] theorem pushDistance_clNum (st : DecoderState) (d : Nat) : (st.pushDistance d).clNum = st.clNum := rfl
@[simp] theorem pushDistance_codeLengths (st : DecoderState) (d : Nat) :
    (st.pushDistance d).codeLengths = st.codeLengths := rfl
@[simp] theorem pushDistance_symIdx (st : DecoderState) (d : Nat) : (st.pushDistance d).symIdx = st.symIdx := rfl
@[simp] theorem pushDistance_prevCodeLen (st : DecoderState) (d : Nat) :
    (st.pushDistance d).prevCodeLen = st.prevCodeLen := rfl
@[simp] theorem pushDistance_repeatCount (st : DecoderState) (d : Nat) :
    (st.pushDistance d).repeatCount = st.repeatCount := rfl
@[simp] theorem pushDistance_repeatCodeLen (st : DecoderState) (d : Nat) :
    (st.pushDistance d).repeatCodeLen = st.repeatCodeLen := rfl
@[simp] theorem pushDistance_space (st : DecoderState) (d : Nat) : (st.pushDistance d).space = st.space := rfl
@[simp] theorem pushDistance_cmNumTrees (st : DecoderState) (d : Nat) :
    (st.pushDistance d).cmNumTrees = st.cmNumTrees := rfl
@[simp] theorem pushDistance_cmRleMax (st : DecoderState) (d : Nat) : (st.pushDistance d).cmRleMax = st.cmRleMax := rfl
@[simp] theorem pushDistance_cmIdx (st : DecoderState) (d : Nat) : (st.pushDistance d).cmIdx = st.cmIdx := rfl
@[simp] theorem pushDistance_cmSize (st : DecoderState) (d : Nat) : (st.pushDistance d).cmSize = st.cmSize := rfl
@[simp] theorem pushDistance_cmTree (st : DecoderState) (d : Nat) : (st.pushDistance d).cmTree = st.cmTree := rfl
@[simp] theorem pushDistance_cmMap (st : DecoderState) (d : Nat) : (st.pushDistance d).cmMap = st.cmMap := rfl
@[simp] theorem pushDistance_outCap (st : DecoderState) (d : Nat) : (st.pushDistance d).outCap = st.outCap := rfl
@[simp] theorem pushDistance_outCount (st : DecoderState) (d : Nat) : (st.pushDistance d).outCount = st.outCount := rfl

@[simp] theorem startCode_runningState (st : DecoderState) (a l : Nat) :
    (st.startCode a l).runningState = st.runningState := rfl
@[simp] theorem startCode_resumeState (st : DecoderState) (a l : Nat) :
    (st.startCode a l).resumeState = st.resumeState := rfl
@[simp] theorem startCode_bitpos (st : DecoderState) (a l : Nat) : (st.startCode a l).bitpos = st.bitpos := rfl
@[simp] theorem startCode_field (st : DecoderState) (a l : Nat) : (st.startCode a l).field = st.field := rfl
@[simp] theorem startCode_cfgLargeWindow (st : DecoderState) (a l : Nat) :
    (st.startCode a l).cfgLargeWindow = st.cfgLargeWindow := rfl
@[simp] theorem startCode_cfgEager (st : DecoderState) (a l : Nat) : (st.startCode a l).cfgEager = st.cfgEager := rfl
@[simp] theorem startCode_isLargeWindow (st : DecoderState) (a l : Nat) :
    (st.startCode a l).isLargeWindow = st.isLargeWindow := rfl
@[simp] theorem startCode_windowBits (st : DecoderState) (a l : Nat) :
    (st.startCode a l).windowBits = st.windowBits := rfl
@[simp] theorem startCode_maxBackwardDistance (st : DecoderState) (a l : Nat) :
    (st.startCode a l).maxBackwardDistance = st.maxBackwardDistance := rfl
@[simp] theorem startCode_isLast (st : DecoderState) (a l : Nat) : (st.startCode a l).isLast = st.isLast := rfl
@[simp] theorem startCode_isUncompressed (st : DecoderState) (a l : Nat) :
    (st.startCode a l).isUncompressed = st.isUncompressed := rfl
@[simp] theorem startCode_isMetadata (st : DecoderState) (a l : Nat) :
    (st.startCode a l).isMetadata = st.isMetadata := rfl
@[simp] theorem startCode_metaBlockLength (st : DecoderState) (a l : Nat) :
    (st.startCode a l).metaBlockLength = st.metaBlockLength := rfl
@[simp] theorem startCode_numBlockTypes (st : DecoderState) (a l : Nat) :
    (st.startCode a l).numBlockTypes = st.numBlockTypes := rfl
@[simp] theorem startCode_blockType (st : DecoderState) (a l : Nat) : (st.startCode a l).blockType = st.blockType := rfl
@[simp] theorem startCode_prevBlockType (st : DecoderState) (a l : Nat) :
    (st.startCode a l).prevBlockType = st.prevBlockType := rfl
@[simp] theorem startCode_blockLength (st : DecoderState) (a l : Nat) :
    (st.startCode a l).blockLength = st.blockLength := rfl
@[simp] theorem startCode_npostfix (st : DecoderState) (a l : Nat) : (st.startCode a l).npostfix = st.npostfix := rfl
@[simp] theorem startCode_ndirect (st : DecoderState) (a l : Nat) : (st.startCode a l).ndirect = st.ndirect := rfl
@[simp] theorem startCode_distAlphabetMax (st : DecoderState) (a l : Nat) :
    (st.startCode a l).distAlphabetMax = st.distAlphabetMax := rfl
@[simp] theorem startCode_distAlphabetLimit (st : DecoderState) (a l : Nat) :
    (st.startCode a l).distAlphabetLimit = st.distAlphabetLimit := rfl
@[simp] theorem startCode_contextModes (st : DecoderState) (a l : Nat) :
    (st.startCode a l).contextModes = st.contextModes := rfl
@[simp] theorem startCode_contextMapL (st : DecoderState) (a l : Nat) :
    (st.startCode a l).contextMapL = st.contextMapL := rfl
@[simp] theorem startCode_contextMapD (st : DecoderState) (a l : Nat) :
    (st.startCode a l).contextMapD = st.contextMapD := rfl
@[simp] theorem startCode_numLiteralTrees (st : DecoderState) (a l : Nat) :
    (st.startCode a l).numLiteralTrees = st.numLiteralTrees := rfl
@[simp] theorem startCode_numDistTrees (st : DecoderState) (a l : Nat) :
    (st.startCode a l).numDistTrees = st.numDistTrees := rfl
@[simp] theorem startCode_literalTrees (st : DecoderState) (a l : Nat) :
    (st.startCode a l).literalTrees = st.literalTrees := rfl
@[simp] theorem startCode_commandTrees (st : DecoderState) (a l : Nat) :
    (st.startCode a l).commandTrees = st.commandTrees := rfl
@[simp] theorem startCode_distanceTrees (st : DecoderState) (a l : Nat) :
    (st.startCode a l).distanceTrees = st.distanceTrees := rfl
@[simp] theorem startCode_blockTypeTree (st : DecoderState) (a l : Nat) :
    (st.startCode a l).blockTypeTree = st.blockTypeTree := rfl
@[simp] theorem startCode_blockLenTree (st : DecoderState) (a l : Nat) :
    (st.startCode a l).blockLenTree = st.blockLenTree := rfl
@[simp] theorem startCode_cmdCode (st : DecoderState) (a l : Nat) : (st.startCode a l).cmdCode = st.cmdCode := rfl
@[simp] theorem startCode_insertLength (st : DecoderState) (a l : Nat) :
    (st.startCode a l).insertLength = st.insertLength := rfl
@[simp] theorem startCode_copyLength (st : DecoderState) (a l : Nat) :
    (st.startCode a l).copyLength = st.copyLength := rfl
@[simp] theorem startCode_distImplicit (st : DecoderState) (a l : Nat) :
    (st.startCode a l).distImplicit = st.distImplicit := rfl
@[simp] theorem startCode_distContext (st : DecoderState) (a l : Nat) :
    (st.startCode a l).distContext = st.distContext := rfl
@[simp] theorem startCode_distSymbol (st : DecoderState) (a l : Nat) :
    (st.startCode a l).distSymbol = st.distSymbol := rfl
@[simp] theorem startCode_distance (st : DecoderState) (a l : Nat) : (st.startCode a l).distance = st.distance := rfl
@[simp] theorem startCode_maxDistance (st : DecoderState) (a l : Nat) :
    (st.startCode a l).maxDistance = st.maxDistance := rfl
@[simp] theorem startCode_j (st : DecoderState) (a l : Nat) : (st.startCode a l).j = st.j := rfl
@[simp] theorem startCode_distRing (st : DecoderState) (a l : Nat) : (st.startCode a l).distRing = st.distRing := rfl
@[simp] theorem startCode_distRbIdx (st : DecoderState) (a l : Nat) : (st.startCode a l).distRbIdx = st.distRbIdx := rfl
@[simp] theorem startCode_H (st : DecoderState) (a l : Nat) : (st.startCode a l).H = st.H := rfl
@[simp] theorem startCode_pos (st : DecoderState) (a l : Nat) : (st.startCode a l).pos = st.pos := rfl
@[simp] theorem startCode_flushed (st : DecoderState) (a l : Nat) : (st.startCode a l).flushed = st.flushed := rfl
@[simp] theorem startCode_RB (st : DecoderState) (a l : Nat) : (st.startCode a l).RB = st.RB := rfl
@[simp] theorem startCode_cdNumChunks (st : DecoderState) (a l : Nat) :
    (st.startCode a l).cdNumChunks = st.cdNumChunks := rfl
@[simp] theorem startCode_cdChunkOffsets (st : DecoderState) (a l : Nat) :
    (st.startCode a l).cdChunkOffsets = st.cdChunkOffsets := rfl
@[simp] theorem startCode_CD (st : DecoderState) (a l : Nat) : (st.startCode a l).CD = st.CD := rfl
@[simp] theorem startCode_cdBrIndex (st : DecoderState) (a l : Nat) : (st.startCode a l).cdBrIndex = st.cdBrIndex := rfl
@[simp] theorem startCode_cdBrOffset (st : DecoderState) (a l : Nat) :
    (st.startCode a l).cdBrOffset = st.cdBrOffset := rfl
@[simp] theorem startCode_cdBrLength (st : DecoderState) (a l : Nat) :
    (st.startCode a l).cdBrLength = st.cdBrLength := rfl
@[simp] theorem startCode_cdBrCopied (st : DecoderState) (a l : Nat) :
    (st.startCode a l).cdBrCopied = st.cdBrCopied := rfl
@[simp] theorem startCode_hphase (st : DecoderState) (a l : Nat) : (st.startCode a l).hphase = st.hphase := rfl
@[simp] theorem startCode_hsub (st : DecoderState) (a l : Nat) : (st.startCode a l).hsub = st.hsub := rfl
@[simp] theorem startCode_hidx (st : DecoderState) (a l : Nat) : (st.startCode a l).hidx = st.hidx := rfl
@[simp] theorem startCode_pcActive (st : DecoderState) (a l : Nat) : (st.startCode a l).pcActive = true := rfl
@[simp] theorem startCode_pcPhase (st : DecoderState) (a l : Nat) : (st.startCode a l).pcPhase = .start := rfl
@[simp] theorem startCode_pcAlphaMax (st : DecoderState) (a l : Nat) : (st.startCode a l).pcAlphaMax = a := rfl
@[simp] theorem startCode_pcAlphaLimit (st : DecoderState) (a l : Nat) : (st.startCode a l).pcAlphaLimit = l := rfl
@[simp] theorem startCode_pcHskip (st : DecoderState) (a l : Nat) : (st.startCode a l).pcHskip = st.pcHskip := rfl
@[simp] theorem startCode_clIdx (st : DecoderState) (a l : Nat) : (st.startCode a l).clIdx = st.clIdx := rfl
@[simp] theorem startCode_clLengths (st : DecoderState) (a l : Nat) : (st.startCode a l).clLengths = st.clLengths := rfl
@[simp] theorem startCode_clSpace (st : DecoderState) (a l : Nat) : (st.startCode a l).clSpace = st.clSpace := rfl
@[simp] theorem startCode_clNum (st : DecoderState) (a l : Nat) : (st.startCode a l).clNum = st.clNum := rfl
@[simp] theorem startCode_codeLengths (st : DecoderState) (a l : Nat) :
    (st.startCode a l).codeLengths = st.codeLengths := rfl
@[simp] theorem startCode_symIdx (st : DecoderState) (a l : Nat) : (st.startCode a l).symIdx = st.symIdx := rfl
@[simp] theorem startCode_prevCodeLen (st : DecoderState) (a l : Nat) :
    (st.startCode a l).prevCodeLen = st.prevCodeLen := rfl
@[simp] theorem startCode_repeatCount (st : DecoderState) (a l : Nat) :
    (st.startCode a l).repeatCount = st.repeatCount := rfl
@[simp] theorem startCode_repeatCodeLen (st : DecoderState) (a l : Nat) :
    (st.startCode a l).repeatCodeLen = st.repeatCodeLen := rfl
@[simp] theorem startCode_space (st : DecoderState) (a l : Nat) : (st.startCode a l).space = st.space := rfl
@[simp] theorem startCode_cmNumTrees (st : DecoderState) (a l : Nat) :
    (st.startCode a l).cmNumTrees = st.cmNumTrees := rfl
@[simp] theorem startCode_cmRleMax (st : DecoderState) (a l : Nat) : (st.startCode a l).cmRleMax = st.cmRleMax := rfl
@[simp] theorem startCode_cmIdx (st : DecoderState) (a l : Nat) : (st.startCode a l).cmIdx = st.cmIdx := rfl
@[simp] theorem startCode_cmSize (st : DecoderState) (a l : Nat) : (st.startCode a l).cmSize = st.cmSize := rfl
@[simp] theorem startCode_cmTree (st : DecoderState) (a l : Nat) : (st.startCode a l).cmTree = st.cmTree := rfl
@[simp] theorem startCode_cmMap (st : DecoderState) (a l : Nat) : (st.startCode a l).cmMap = st.cmMap := rfl
@[simp] theorem startCode_outCap (st : DecoderState) (a l : Nat) : (st.startCode a l).outCap = st.outCap := rfl
@[simp] theorem startCode_outCount (st : DecoderState) (a l : Nat) : (st.startCode a l).outCount = st.outCount := rfl

@[simp] theorem fenceTest_runningState (st : DecoderState) (r : RunningState) :
    (st.fenceTest r).runningState = if st.fence ≤ st.pos then .writeOutput else r := by unfold DecoderState.fenceTest; split <;> simp_all
@[simp] theorem fenceTest_resumeState (st : DecoderState) (r : RunningState) :
    (st.fenceTest r).resumeState = if st.fence ≤ st.pos then r else st.resumeState := by unfold DecoderState.fenceTest; split <;> simp_all
@[simp] theorem fenceTest_bitpos (st : DecoderState) (r : RunningState) :
    (st.fenceTest r).bitpos = st.bitpos := by unfold DecoderState.fenceTest; split <;> simp_all
@[simp] theorem fenceTest_field (st : DecoderState) (r : RunningState) :
    (st.fenceTest r).field = st.field := by unfold DecoderState.fenceTest; split <;> simp_all
@[simp] theorem fenceTest_cfgLargeWindow (st : DecoderState) (r : RunningState) :
    (st.fenceTest r).cfgLargeWindow = st.cfgLargeWindow := by unfold DecoderState.fenceTest; split <;> simp_all
@[simp] theorem fenceTest_cfgEager (st : DecoderState) (r : RunningState) :
    (st.fenceTest r).cfgEager = st.cfgEager := by unfold DecoderState.fenceTest; split <;> simp_all
@[simp] theorem fenceTest_isLargeWindow (st : DecoderState) (r : RunningState) :
    (st.fenceTest r).isLargeWindow = st.isLargeWindow := by unfold DecoderState.fenceTest; split <;> simp_all
@[simp] theorem fenceTest_windowBits (st : DecoderState) (r : RunningState) :
    (st.fenceTest r).windowBits = st.windowBits := by unfold DecoderState.fenceTest; split <;> simp_all
@[simp] theorem fenceTest_maxBackwardDistance (st : DecoderState) (r : RunningState) :
    (st.fenceTest r).maxBackwardDistance = st.maxBackwardDistance := by unfold DecoderState.fenceTest; split <;> simp_all
@[simp] theorem fenceTest_isLast (st : DecoderState) (r : RunningState) :
    (st.fenceTest r).isLast = st.isLast := by unfold DecoderState.fenceTest; split <;> simp_all
@[simp] theorem fenceTest_isUncompressed (st : DecoderState) (r : RunningState) :
    (st.fenceTest r).isUncompressed = st.isUncompressed := by unfold DecoderState.fenceTest; split <;> simp_all
@[simp] theorem fenceTest_isMetadata (st : DecoderState) (r : RunningState) :
    (st.fenceTest r).isMetadata = st.isMetadata := by unfold DecoderState.fenceTest; split <;> simp_all
@[simp] theorem fenceTest_metaBlockLength (st : DecoderState) (r : RunningState) :
    (st.fenceTest r).metaBlockLength = st.metaBlockLength := by unfold DecoderState.fenceTest; split <;> simp_all
@[simp] theorem fenceTest_numBlockTypes (st : DecoderState) (r : RunningState) :
    (st.fenceTest r).numBlockTypes = st.numBlockTypes := by unfold DecoderState.fenceTest; split <;> simp_all
@[simp] theorem fenceTest_blockType (st : DecoderState) (r : RunningState) :
    (st.fenceTest r).blockType = st.blockType := by unfold DecoderState.fenceTest; split <;> simp_all
@[simp] theorem fenceTest_prevBlockType (st : DecoderState) (r : RunningState) :
    (st.fenceTest r).prevBlockType = st.prevBlockType := by unfold DecoderState.fenceTest; split <;> simp_all
@[simp] theorem fenceTest_blockLength (st : DecoderState) (r : RunningState) :
    (st.fenceTest r).blockLength = st.blockLength := by unfold DecoderState.fenceTest; split <;> simp_all
@[simp] theorem fenceTest_npostfix (st : DecoderState) (r : RunningState) :
    (st.fenceTest r).npostfix = st.npostfix := by unfold DecoderState.fenceTest; split <;> simp_all
@[simp] theorem fenceTest_ndirect (st : DecoderState) (r : RunningState) :
    (st.fenceTest r).ndirect = st.ndirect := by unfold DecoderState.fenceTest; split <;> simp_all
@[simp] theorem fenceTest_distAlphabetMax (st : DecoderState) (r : RunningState) :
    (st.fenceTest r).distAlphabetMax = st.distAlphabetMax := by unfold DecoderState.fenceTest; split <;> simp_all
@[simp] theorem fenceTest_distAlphabetLimit (st : DecoderState) (r : RunningState) :
    (st.fenceTest r).distAlphabetLimit = st.distAlphabetLimit := by unfold DecoderState.fenceTest; split <;> simp_all
@[simp] theorem fenceTest_contextModes (st : DecoderState) (r : RunningState) :
    (st.fenceTest r).contextModes = st.contextModes := by unfold DecoderState.fenceTest; split <;> simp_all
@[simp] theorem fenceTest_contextMapL (st : DecoderState) (r : RunningState) :
    (st.fenceTest r).contextMapL = st.contextMapL := by unfold DecoderState.fenceTest; split <;> simp_all
@[simp] theorem fenceTest_contextMapD (st : DecoderState) (r : RunningState) :
    (st.fenceTest r).contextMapD = st.contextMapD := by unfold DecoderState.fenceTest; split <;> simp_all
@[simp] theorem fenceTest_numLiteralTrees (st : DecoderState) (r : RunningState) :
    (st.fenceTest r).numLiteralTrees = st.numLiteralTrees := by unfold DecoderState.fenceTest; split <;> simp_all
@[simp] theorem fenceTest_numDistTrees (st : DecoderState) (r : RunningState) :
    (st.fenceTest r).numDistTrees = st.numDistTrees := by unfold DecoderState.fenceTest; split <;> simp_all
@[simp] theorem fenceTest_literalTrees (st : DecoderState) (r : RunningState) :
    (st.fenceTest r).literalTrees = st.literalTrees := by unfold DecoderState.fenceTest; split <;> simp_all
@[simp] theorem fenceTest_commandTrees (st : DecoderState) (r : RunningState) :
    (st.fenceTest r).commandTrees = st.commandTrees := by unfold DecoderState.fenceTest; split <;> simp_all
@[simp] theorem fenceTest_distanceTrees (st : DecoderState) (r : RunningState) :
    (st.fenceTest r).distanceTrees = st.distanceTrees := by unfold DecoderState.fenceTest; split <;> simp_all
@[simp] theorem fenceTest_blockTypeTree (st : DecoderState) (r : RunningState) :
    (st.fenceTest r).blockTypeTree = st.blockTypeTree := by unfold DecoderState.fenceTest; split <;> simp_all
@[simp] theorem fenceTest_blockLenTree (st : DecoderState) (r : RunningState) :
    (st.fenceTest r).blockLenTree = st.blockLenTree := by unfold DecoderState.fenceTest; split <;> simp_all
@[simp] theorem fenceTest_cmdCode (st : DecoderState) (r : RunningState) :
    (st.fenceTest r).cmdCode = st.cmdCode := by unfold DecoderState.fenceTest; split <;> simp_all
@[simp] theorem fenceTest_insertLength (st : DecoderState) (r : RunningState) :
    (st.fenceTest r).insertLength = st.insertLength := by unfold DecoderState.fenceTest; split <;> simp_all
@[simp] theorem fenceTest_copyLength (st : DecoderState) (r : RunningState) :
    (st.fenceTest r).copyLength = st.copyLength := by unfold DecoderState.fenceTest; split <;> simp_all
@[simp] theorem fenceTest_distImplicit (st : DecoderState) (r : RunningState) :
    (st.fenceTest r).distImplicit = st.distImplicit := by unfold DecoderState.fenceTest; split <;> simp_all
@[simp] theorem fenceTest_distContext (st : DecoderState) (r : RunningState) :
    (st.fenceTest r).distContext = st.distContext := by unfold DecoderState.fenceTest; split <;> simp_all
@[simp] theorem fenceTest_distSymbol (st : DecoderState) (r : RunningState) :
    (st.fenceTest r).distSymbol = st.distSymbol := by unfold DecoderState.fenceTest; split <;> simp_all
@[simp] theorem fenceTest_distance (st : DecoderState) (r : RunningState) :
    (st.fenceTest r).distance = st.distance := by unfold DecoderState.fenceTest; split <;> simp_all
@[simp] theorem fenceTest_maxDistance (st : DecoderState) (r : RunningState) :
    (st.fenceTest r).maxDistance = st.maxDistance := by unfold DecoderState.fenceTest; split <;> simp_all
@[simp] theorem fenceTest_j (st : DecoderState) (r : RunningState) :
    (st.fenceTest r).j = st.j := by unfold DecoderState.fenceTest; split <;> simp_all
@[simp] theorem fenceTest_distRing (st : DecoderState) (r : RunningState) :
    (st.fenceTest r).distRing = st.distRing := by unfold DecoderState.fenceTest; split <;> simp_all
@[simp] theorem fenceTest_distRbIdx (st : DecoderState) (r : RunningState) :
    (st.fenceTest r).distRbIdx = st.distRbIdx := by unfold DecoderState.fenceTest; split <;> simp_all
@[simp] theorem fenceTest_H (st : DecoderState) (r : RunningState) :
    (st.fenceTest r).H = st.H := by unfold DecoderState.fenceTest; split <;> simp_all
@[simp] theorem fenceTest_pos (st : DecoderState) (r : RunningState) :
    (st.fenceTest r).pos = st.pos := by unfold DecoderState.fenceTest; split <;> simp_all
@[simp] theorem fenceTest_flushed (st : DecoderState) (r : RunningState) :
    (st.fenceTest r).flushed = st.flushed := by unfold DecoderState.fenceTest; split <;> simp_all
@[simp] theorem fenceTest_RB (st : DecoderState) (r : RunningState) :
    (st.fenceTest r).RB = st.RB := by unfold DecoderState.fenceTest; split <;> simp_all
@[simp] theorem fenceTest_cdNumChunks (st : DecoderState) (r : RunningState) :
    (st.fenceTest r).cdNumChunks = st.cdNumChunks := by unfold DecoderState.fenceTest; split <;> simp_all
@[simp] theorem fenceTest_cdChunkOffsets (st : DecoderState) (r : RunningState) :
    (st.fenceTest r).cdChunkOffsets = st.cdChunkOffsets := by unfold DecoderState.fenceTest; split <;> simp_all
@[simp] theorem fenceTest_CD (st : DecoderState) (r : RunningState) :
    (st.fenceTest r).CD = st.CD := by unfold DecoderState.fenceTest; split <;> simp_all
@[simp] theorem fenceTest_cdBrIndex (st : DecoderState) (r : RunningState) :
    (st.fenceTest r).cdBrIndex = st.cdBrIndex := by unfold DecoderState.fenceTest; split <;> simp_all
@[simp] theorem fenceTest_cdBrOffset (st : DecoderState) (r : RunningState) :
    (st.fenceTest r).cdBrOffset = st.cdBrOffset := by unfold DecoderState.fenceTest; split <;> simp_all
@[simp] theorem fenceTest_cdBrLength (st : DecoderState) (r : RunningState) :
    (st.fenceTest r).cdBrLength = st.cdBrLength := by unfold DecoderState.fenceTest; split <;> simp_all
@[simp] theorem fenceTest_cdBrCopied (st : DecoderState) (r : RunningState) :
    (st.fenceTest r).cdBrCopied = st.cdBrCopied := by unfold DecoderState.fenceTest; split <;> simp_all
@[simp] theorem fenceTest_hphase (st : DecoderState) (r : RunningState) :
    (st.fenceTest r).hphase = st.hphase := by unfold DecoderState.fenceTest; split <;> simp_all
@[simp] theorem fenceTest_hsub (st : DecoderState) (r : RunningState) :
    (st.fenceTest r).hsub = st.hsub := by unfold DecoderState.fenceTest; split <;> simp_all
@[simp] theorem fenceTest_hidx (st : DecoderState) (r : RunningState) :
    (st.fenceTest r).hidx = st.hidx := by unfold DecoderState.fenceTest; split <;> simp_all
@[simp] theorem fenceTest_pcActive (st : DecoderState) (r : RunningState) :
    (st.fenceTest r).pcActive = st.pcActive := by unfold DecoderState.fenceTest; split <;> simp_all
@[simp] theorem fenceTest_pcPhase (st : DecoderState) (r : RunningState) :
    (st.fenceTest r).pcPhase = st.pcPhase := by unfold DecoderState.fenceTest; split <;> simp_all
@[simp] theorem fenceTest_pcAlphaMax (st : DecoderState) (r : RunningState) :
    (st.fenceTest r).pcAlphaMax = st.pcAlphaMax := by unfold DecoderState.fenceTest; split <;> simp_all
@[simp] theorem fenceTest_pcAlphaLimit (st : DecoderState) (r : RunningState) :
    (st.fenceTest r).pcAlphaLimit = st.pcAlphaLimit := by unfold DecoderState.fenceTest; split <;> simp_all
@[simp] theorem fenceTest_pcHskip (st : DecoderState) (r : RunningState) :
    (st.fenceTest r).pcHskip = st.pcHskip := by unfold DecoderState.fenceTest; split <;> simp_all
@[simp] theorem fenceTest_clIdx (st : DecoderState) (r : RunningState) :
    (st.fenceTest r).clIdx = st.clIdx := by unfold DecoderState.fenceTest; split <;> simp_all
@[simp] theorem fenceTest_clLengths (st : DecoderState) (r : RunningState) :
    (st.fenceTest r).clLengths = st.clLengths := by unfold DecoderState.fenceTest; split <;> simp_all
@[simp] theorem fenceTest_clSpace (st : DecoderState) (r : RunningState) :
    (st.fenceTest r).clSpace = st.clSpace := by unfold DecoderState.fenceTest; split <;> simp_all
@[simp] theorem fenceTest_clNum (st : DecoderState) (r : RunningState) :
    (st.fenceTest r).clNum = st.clNum := by unfold DecoderState.fenceTest; split <;> simp_all
@[simp] theorem fenceTest_codeLengths (st : DecoderState) (r : RunningState) :
    (st.fenceTest r).codeLengths = st.codeLengths := by unfold DecoderState.fenceTest; split <;> simp_all
@[simp] theorem fenceTest_symIdx (st : DecoderState) (r : RunningState) :
    (st.fenceTest r).symIdx = st.symIdx := by unfold DecoderState.fenceTest; split <;> simp_all
@[simp] theorem fenceTest_prevCodeLen (st : DecoderState) (r : RunningState) :
    (st.fenceTest r).prevCodeLen = st.prevCodeLen := by unfold DecoderState.fenceTest; split <;> simp_all
@[simp] theorem fenceTest_repeatCount (st : DecoderState) (r : RunningState) :
    (st.fenceTest r).repeatCount = st.repeatCount := by unfold DecoderState.fenceTest; split <;> simp_all
@[simp] theorem fenceTest_repeatCodeLen (st : DecoderState) (r : RunningState) :
    (st.fenceTest r).repeatCodeLen = st.repeatCodeLen := by unfold DecoderState.fenceTest; split <;> simp_all
@[simp] theorem fenceTest_space (st : DecoderState) (r : RunningState) :
    (st.fenceTest r).space = st.space := by unfold DecoderState.fenceTest; split <;> simp_all
@[simp] theorem fenceTest_cmNumTrees (st : DecoderState) (r : RunningState) :
    (st.fenceTest r).cmNumTrees = st.cmNumTrees := by unfold DecoderState.fenceTest; split <;> simp_all
@[simp] theorem fenceTest_cmRleMax (st : DecoderState) (r : RunningState) :
    (st.fenceTest r).cmRleMax = st.cmRleMax := by unfold DecoderState.fenceTest; split <;> simp_all
@[simp] theorem fenceTest_cmIdx (st : DecoderState) (r : RunningState) :
    (st.fenceTest r).cmIdx = st.cmIdx := by unfold DecoderState.fenceTest; split <;> simp_all
@[simp] theorem fenceTest_cmSize (st : DecoderState) (r : RunningState) :
    (st.fenceTest r).cmSize = st.cmSize := by unfold DecoderState.fenceTest; split <;> simp_all
@[simp] theorem fenceTest_cmTree (st : DecoderState) (r : RunningState) :
    (st.fenceTest r).cmTree = st.cmTree := by unfold DecoderState.fenceTest; split <;> simp_all
@[simp] theorem fenceTest_cmMap (st : DecoderState) (r : RunningState) :
    (st.fenceTest r).cmMap = st.cmMap := by unfold DecoderState.fenceTest; split <;> simp_all
@[simp] theorem fenceTest_outCap (st : DecoderState) (r : RunningState) :
    (st.fenceTest r).outCap = st.outCap := by unfold DecoderState.fenceTest; split <;> simp_all
@[simp] theorem fenceTest_outCount (st : DecoderState) (r : RunningState) :
    (st.fenceTest r).outCount = st.outCount := by unfold DecoderState.fenceTest; split <;> simp_all

@[simp] theorem enterPhase_runningState (st : DecoderState) (p : HPhase) :
    (st.enterPhase p).runningState = st.runningState := by cases p <;> rfl
@[simp] theorem enterPhase_resumeState (st : DecoderState) (p : HPhase) :
    (st.enterPhase p).resumeState = st.resumeState := by cases p <;> rfl
@[simp] theorem enterPhase_bitpos (st : DecoderState) (p : HPhase) :
    (st.enterPhase p).bitpos = st.bitpos := by cases p <;> rfl
@[simp] theorem enterPhase_field (st : DecoderState) (p : HPhase) :
    (st.enterPhase p).field = st.field := by cases p <;> rfl
@[simp] theorem enterPhase_cfgLargeWindow (st : DecoderState) (p : HPhase) :
    (st.enterPhase p).cfgLargeWindow = st.cfgLargeWindow := by cases p <;> rfl
@[simp] theorem enterPhase_cfgEager (st : DecoderState) (p : HPhase) :
    (st.enterPhase p).cfgEager = st.cfgEager := by cases p <;> rfl
@[simp] theorem enterPhase_isLargeWindow (st : DecoderState) (p : HPhase) :
    (st.enterPhase p).isLargeWindow = st.isLargeWindow := by cases p <;> rfl
@[simp] theorem enterPhase_windowBits (st : DecoderState) (p : HPhase) :
    (st.enterPhase p).windowBits = st.windowBits := by cases p <;> rfl
@[simp] theorem enterPhase_maxBackwardDistance (st : DecoderState) (p : HPhase) :
    (st.enterPhase p).maxBackwardDistance = st.maxBackwardDistance := by cases p <;> rfl
@[simp] theorem enterPhase_isLast (st : DecoderState) (p : HPhase) :
    (st.enterPhase p).isLast = st.isLast := by cases p <;> rfl
@[simp] theorem enterPhase_isUncompressed (st : DecoderState) (p : HPhase) :
    (st.enterPhase p).isUncompressed = st.isUncompressed := by cases p <;> rfl
@[simp] theorem enterPhase_isMetadata (st : DecoderState) (p : HPhase) :
    (st.enterPhase p).isMetadata = st.isMetadata := by cases p <;> rfl
@[simp] theorem enterPhase_metaBlockLength (st : DecoderState) (p : HPhase) :
    (st.enterPhase p).metaBlockLength = st.metaBlockLength := by cases p <;> rfl
@[simp] theorem enterPhase_numBlockTypes (st : DecoderState) (p : HPhase) :
    (st.enterPhase p).numBlockTypes = st.numBlockTypes := by cases p <;> rfl
@[simp] theorem enterPhase_blockType (st : DecoderState) (p : HPhase) :
    (st.enterPhase p).blockType = st.blockType := by cases p <;> rfl
@[simp] theorem enterPhase_prevBlockType (st : DecoderState) (p : HPhase) :
    (st.enterPhase p).prevBlockType = st.prevBlockType := by cases p <;> rfl
@[simp] theorem enterPhase_blockLength (st : DecoderState) (p : HPhase) :
    (st.enterPhase p).blockLength = st.blockLength := by cases p <;> rfl
@[simp] theorem enterPhase_npostfix (st : DecoderState) (p : HPhase) :
    (st.enterPhase p).npostfix = st.npostfix := by cases p <;> rfl
@[simp] theorem enterPhase_ndirect (st : DecoderState) (p : HPhase) :
    (st.enterPhase p).ndirect = st.ndirect := by cases p <;> rfl
@[simp] theorem enterPhase_distAlphabetMax (st : DecoderState) (p : HPhase) :
    (st.enterPhase p).distAlphabetMax = st.distAlphabetMax := by cases p <;> rfl
@[simp] theorem enterPhase_distAlphabetLimit (st : DecoderState) (p : HPhase) :
    (st.enterPhase p).distAlphabetLimit = st.distAlphabetLimit := by cases p <;> rfl
@[simp] theorem enterPhase_contextModes (st : DecoderState) (p : HPhase) :
    (st.enterPhase p).contextModes = st.contextModes := by cases p <;> rfl
@[simp] theorem enterPhase_contextMapL (st : DecoderState) (p : HPhase) :
    (st.enterPhase p).contextMapL = st.contextMapL := by cases p <;> rfl
@[simp] theorem enterPhase_contextMapD (st : DecoderState) (p : HPhase) :
    (st.enterPhase p).contextMapD = st.contextMapD := by cases p <;> rfl
@[simp] theorem enterPhase_numLiteralTrees (st : DecoderState) (p : HPhase) :
    (st.enterPhase p).numLiteralTrees = st.numLiteralTrees := by cases p <;> rfl
@[simp] theorem enterPhase_numDistTrees (st : DecoderState) (p : HPhase) :
    (st.enterPhase p).numDistTrees = st.numDistTrees := by cases p <;> rfl
@[simp] theorem enterPhase_literalTrees (st : DecoderState) (p : HPhase) :
    (st.enterPhase p).literalTrees = st.literalTrees := by cases p <;> rfl
@[simp] theorem enterPhase_commandTrees (st : DecoderState) (p : HPhase) :
    (st.enterPhase p).commandTrees = st.commandTrees := by cases p <;> rfl
@[simp] theorem enterPhase_distanceTrees (st : DecoderState) (p : HPhase) :
    (st.enterPhase p).distanceTrees = st.distanceTrees := by cases p <;> rfl
@[simp] theorem enterPhase_blockTypeTree (st : DecoderState) (p : HPhase) :
    (st.enterPhase p).blockTypeTree = st.blockTypeTree := by cases p <;> rfl
@[simp] theorem enterPhase_blockLenTree (st : DecoderState) (p : HPhase) :
    (st.enterPhase p).blockLenTree = st.blockLenTree := by cases p <;> rfl
@[simp] theorem enterPhase_cmdCode (st : DecoderState) (p : HPhase) :
    (st.enterPhase p).cmdCode = st.cmdCode := by cases p <;> rfl
@[simp] theorem enterPhase_insertLength (st : DecoderState) (p : HPhase) :
    (st.enterPhase p).insertLength = st.insertLength := by cases p <;> rfl
@[simp] theorem enterPhase_copyLength (st : DecoderState) (p : HPhase) :
    (st.enterPhase p).copyLength = st.copyLength := by cases p <;> rfl
@[simp] theorem enterPhase_distImplicit (st : DecoderState) (p : HPhase) :
    (st.enterPhase p).distImplicit = st.distImplicit := by cases p <;> rfl
@[simp] theorem enterPhase_distContext (st : DecoderState) (p : HPhase) :
    (st.enterPhase p).distContext = st.distContext := by cases p <;> rfl
@[simp] theorem enterPhase_distSymbol (st : DecoderState) (p : HPhase) :
    (st.enterPhase p).distSymbol = st.distSymbol := by cases p <;> rfl
@[simp] theorem enterPhase_distance (st : DecoderState) (p : HPhase) :
    (st.enterPhase p).distance = st.distance := by cases p <;> rfl
@[simp] theorem enterPhase_maxDistance (st : DecoderState) (p : HPhase) :
    (st.enterPhase p).maxDistance = st.maxDistance := by cases p <;> rfl
@[simp] theorem enterPhase_j (st : DecoderState) (p : HPhase) : (st.enterPhase p).j = st.j := by cases p <;> rfl
@[simp] theorem enterPhase_distRing (st : DecoderState) (p : HPhase) :
    (st.enterPhase p).distRing = st.distRing := by cases p <;> rfl
@[simp] theorem enterPhase_distRbIdx (st : DecoderState) (p : HPhase) :
    (st.enterPhase p).distRbIdx = st.distRbIdx := by cases p <;> rfl
@[simp] theorem enterPhase_H (st : DecoderState) (p : HPhase) : (st.enterPhase p).H = st.H := by cases p <;> rfl
@[simp] theorem enterPhase_pos (st : DecoderState) (p : HPhase) : (st.enterPhase p).pos = st.pos := by cases p <;> rfl
@[simp] theorem enterPhase_flushed (st : DecoderState) (p : HPhase) :
    (st.enterPhase p).flushed = st.flushed := by cases p <;> rfl
@[simp] theorem enterPhase_RB (st : DecoderState) (p : HPhase) : (st.enterPhase p).RB = st.RB := by cases p <;> rfl
@[simp] theorem enterPhase_cdNumChunks (st : DecoderState) (p : HPhase) :
    (st.enterPhase p).cdNumChunks = st.cdNumChunks := by cases p <;> rfl
@[simp] theorem enterPhase_cdChunkOffsets (st : DecoderState) (p : HPhase) :
    (st.enterPhase p).cdChunkOffsets = st.cdChunkOffsets := by cases p <;> rfl
@[simp] theorem enterPhase_CD (st : DecoderState) (p : HPhase) : (st.enterPhase p).CD = st.CD := by cases p <;> rfl
@[simp] theorem enterPhase_cdBrIndex (st : DecoderState) (p : HPhase) :
    (st.enterPhase p).cdBrIndex = st.cdBrIndex := by cases p <;> rfl
@[simp] theorem enterPhase_cdBrOffset (st : DecoderState) (p : HPhase) :
    (st.enterPhase p).cdBrOffset = st.cdBrOffset := by cases p <;> rfl
@[simp] theorem enterPhase_cdBrLength (st : DecoderState) (p : HPhase) :
    (st.enterPhase p).cdBrLength = st.cdBrLength := by cases p <;> rfl
@[simp] theorem enterPhase_cdBrCopied (st : DecoderState) (p : HPhase) :
    (st.enterPhase p).cdBrCopied = st.cdBrCopied := by cases p <;> rfl
@[simp] theorem enterPhase_hphase (st : DecoderState) (p : HPhase) : (st.enterPhase p).hphase = p := by cases p <;> rfl
@[simp] theorem enterPhase_hsub (st : DecoderState) (p : HPhase) : (st.enterPhase p).hsub = 0 := by cases p <;> rfl
@[simp] theorem enterPhase_hidx (st : DecoderState) (p : HPhase) : (st.enterPhase p).hidx = 0 := by cases p <;> rfl
@[simp] theorem enterPhase_pcHskip (st : DecoderState) (p : HPhase) :
    (st.enterPhase p).pcHskip = st.pcHskip := by cases p <;> rfl
@[simp] theorem enterPhase_clIdx (st : DecoderState) (p : HPhase) :
    (st.enterPhase p).clIdx = st.clIdx := by cases p <;> rfl
@[simp] theorem enterPhase_clLengths (st : DecoderState) (p : HPhase) :
    (st.enterPhase p).clLengths = st.clLengths := by cases p <;> rfl
@[simp] theorem enterPhase_clSpace (st : DecoderState) (p : HPhase) :
    (st.enterPhase p).clSpace = st.clSpace := by cases p <;> rfl
@[simp] theorem enterPhase_clNum (st : DecoderState) (p : HPhase) :
    (st.enterPhase p).clNum = st.clNum := by cases p <;> rfl
@[simp] theorem enterPhase_codeLengths (st : DecoderState) (p : HPhase) :
    (st.enterPhase p).codeLengths = st.codeLengths := by cases p <;> rfl
@[simp] theorem enterPhase_symIdx (st : DecoderState) (p : HPhase) :
    (st.enterPhase p).symIdx = st.symIdx := by cases p <;> rfl
@[simp] theorem enterPhase_prevCodeLen (st : DecoderState) (p : HPhase) :
    (st.enterPhase p).prevCodeLen = st.prevCodeLen := by cases p <;> rfl
@[simp] theorem enterPhase_repeatCount (st : DecoderState) (p : HPhase) :
    (st.enterPhase p).repeatCount = st.repeatCount := by cases p <;> rfl
@[simp] theorem enterPhase_repeatCodeLen (st : DecoderState) (p : HPhase) :
    (st.enterPhase p).repeatCodeLen = st.repeatCodeLen := by cases p <;> rfl
@[simp] theorem enterPhase_space (st : DecoderState) (p : HPhase) :
    (st.enterPhase p).space = st.space := by cases p <;> rfl
@[simp] theorem enterPhase_cmNumTrees (st : DecoderState) (p : HPhase) :
    (st.enterPhase p).cmNumTrees = st.cmNumTrees := by cases p <;> rfl
@[simp] theorem enterPhase_cmRleMax (st : DecoderState) (p : HPhase) :
    (st.enterPhase p).cmRleMax = st.cmRleMax := by cases p <;> rfl
@[simp] theorem enterPhase_cmIdx (st : DecoderState) (p : HPhase) :
    (st.enterPhase p).cmIdx = st.cmIdx := by cases p <;> rfl
@[simp] theorem enterPhase_cmSize (st : DecoderState) (p : HPhase) :
    (st.enterPhase p).cmSize = st.cmSize := by cases p <;> rfl
@[simp] theorem enterPhase_cmTree (st : DecoderState) (p : HPhase) :
    (st.enterPhase p).cmTree = st.cmTree := by cases p <;> rfl
@[simp] theorem enterPhase_cmMap (st : DecoderState) (p : HPhase) :
    (st.enterPhase p).cmMap = st.cmMap := by cases p <;> rfl
@[simp] theorem enterPhase_outCap (st : DecoderState) (p : HPhase) :
    (st.enterPhase p).outCap = st.outCap := by cases p <;> rfl
@[simp] theorem enterPhase_outCount (st : DecoderState) (p : HPhase) :
    (st.enterPhase p).outCount = st.outCount := by cases p <;> rfl

@[simp] theorem setMap_runningState (st : DecoderState) (m : Memory) :
    (st.setMap m).runningState = st.runningState := rfl
@[simp] theorem setMap_resumeState (st : DecoderState) (m : Memory) : (st.setMap m).resumeState = st.resumeState := rfl
@[simp] theorem setMap_bitpos (st : DecoderState) (m : Memory) : (st.setMap m).bitpos = st.bitpos := rfl
@[simp] theorem setMap_field (st : DecoderState) (m : Memory) : (st.setMap m).field = st.field := rfl
@[simp] theorem setMap_cfgLargeWindow (st : DecoderState) (m : Memory) :
    (st.setMap m).cfgLargeWindow = st.cfgLargeWindow := rfl
@[simp] theorem setMap_cfgEager (st : DecoderState) (m : Memory) : (st.setMap m).cfgEager = st.cfgEager := rfl
@[simp] theorem setMap_isLargeWindow (st : DecoderState) (m : Memory) :
    (st.setMap m).isLargeWindow = st.isLargeWindow := rfl
@[simp] theorem setMap_windowBits (st : DecoderState) (m : Memory) : (st.setMap m).windowBits = st.windowBits := rfl
@[simp] theorem setMap_maxBackwardDistance (st : DecoderState) (m : Memory) :
    (st.setMap m).maxBackwardDistance = st.maxBackwardDistance := rfl
@[simp] theorem setMap_isLast (st : DecoderState) (m : Memory) : (st.setMap m).isLast = st.isLast := rfl
@[simp] theorem setMap_isUncompressed (st : DecoderState) (m : Memory) :
    (st.setMap m).isUncompressed = st.isUncompressed := rfl
@[simp] theorem setMap_isMetadata (st : DecoderState) (m : Memory) : (st.setMap m).isMetadata = st.isMetadata := rfl
@[simp] theorem setMap_metaBlockLength (st : DecoderState) (m : Memory) :
    (st.setMap m).metaBlockLength = st.metaBlockLength := rfl
@[simp] theorem setMap_numBlockTypes (st : DecoderState) (m : Memory) :
    (st.setMap m).numBlockTypes = st.numBlockTypes := rfl
@[simp] theorem setMap_blockType (st : DecoderState) (m : Memory) : (st.setMap m).blockType = st.blockType := rfl
@[simp] theorem setMap_prevBlockType (st : DecoderState) (m : Memory) :
    (st.setMap m).prevBlockType = st.prevBlockType := rfl
@[simp] theorem setMap_blockLength (st : DecoderState) (m : Memory) : (st.setMap m).blockLength = st.blockLength := rfl
@[simp] theorem setMap_npostfix (st : DecoderState) (m : Memory) : (st.setMap m).npostfix = st.npostfix := rfl
@[simp] theorem setMap_ndirect (st : DecoderState) (m : Memory) : (st.setMap m).ndirect = st.ndirect := rfl
@[simp] theorem setMap_distAlphabetMax (st : DecoderState) (m : Memory) :
    (st.setMap m).distAlphabetMax = st.distAlphabetMax := rfl
@[simp] theorem setMap_distAlphabetLimit (st : DecoderState) (m : Memory) :
    (st.setMap m).distAlphabetLimit = st.distAlphabetLimit := rfl
@[simp] theorem setMap_contextModes (st : DecoderState) (m : Memory) :
    (st.setMap m).contextModes = st.contextModes := rfl
@[simp] theorem setMap_contextMapL (st : DecoderState) (m : Memory) : (st.setMap m).contextMapL = st.contextMapL := rfl
@[simp] theorem setMap_contextMapD (st : DecoderState) (m : Memory) : (st.setMap m).contextMapD = st.contextMapD := rfl
@[simp] theorem setMap_numLiteralTrees (st : DecoderState) (m : Memory) :
    (st.setMap m).numLiteralTrees = st.numLiteralTrees := rfl
@[simp] theorem setMap_numDistTrees (st : DecoderState) (m : Memory) :
    (st.setMap m).numDistTrees = st.numDistTrees := rfl
@[simp] theorem setMap_literalTrees (st : DecoderState) (m : Memory) :
    (st.setMap m).literalTrees = st.literalTrees := rfl
@[simp] theorem setMap_commandTrees (st : DecoderState) (m : Memory) :
    (st.setMap m).commandTrees = st.commandTrees := rfl
@[simp] theorem setMap_distanceTrees (st : DecoderState) (m : Memory) :
    (st.setMap m).distanceTrees = st.distanceTrees := rfl
@[simp] theorem setMap_blockTypeTree (st : DecoderState) (m : Memory) :
    (st.setMap m).blockTypeTree = st.blockTypeTree := rfl
@[simp] theorem setMap_blockLenTree (st : DecoderState) (m : Memory) :
    (st.setMap m).blockLenTree = st.blockLenTree := rfl
@[simp] theorem setMap_cmdCode (st : DecoderState) (m : Memory) : (st.setMap m).cmdCode = st.cmdCode := rfl
@[simp] theorem setMap_insertLength (st : DecoderState) (m : Memory) :
    (st.setMap m).insertLength = st.insertLength := rfl
@[simp] theorem setMap_copyLength (st : DecoderState) (m : Memory) : (st.setMap m).copyLength = st.copyLength := rfl
@[simp] theorem setMap_distImplicit (st : DecoderState) (m : Memory) :
    (st.setMap m).distImplicit = st.distImplicit := rfl
@[simp] theorem setMap_distContext (st : DecoderState) (m : Memory) : (st.setMap m).distContext = st.distContext := rfl
@[simp] theorem setMap_distSymbol (st : DecoderState) (m : Memory) : (st.setMap m).distSymbol = st.distSymbol := rfl
@[simp] theorem setMap_distance (st : DecoderState) (m : Memory) : (st.setMap m).distance = st.distance := rfl
@[simp] theorem setMap_maxDistance (st : DecoderState) (m : Memory) : (st.setMap m).maxDistance = st.maxDistance := rfl
@[simp] theorem setMap_j (st : DecoderState) (m : Memory) : (st.setMap m).j = st.j := rfl
@[simp] theorem setMap_distRing (st : DecoderState) (m : Memory) : (st.setMap m).distRing = st.distRing := rfl
@[simp] theorem setMap_distRbIdx (st : DecoderState) (m : Memory) : (st.setMap m).distRbIdx = st.distRbIdx := rfl
@[simp] theorem setMap_H (st : DecoderState) (m : Memory) : (st.setMap m).H = st.H := rfl
@[simp] theorem setMap_pos (st : DecoderState) (m : Memory) : (st.setMap m).pos = st.pos := rfl
@[simp] theorem setMap_flushed (st : DecoderState) (m : Memory) : (st.setMap m).flushed = st.flushed := rfl
@[simp] theorem setMap_RB (st : DecoderState) (m : Memory) : (st.setMap m).RB = st.RB := rfl
@[simp] theorem setMap_cdNumChunks (st : DecoderState) (m : Memory) : (st.setMap m).cdNumChunks = st.cdNumChunks := rfl
@[simp] theorem setMap_cdChunkOffsets (st : DecoderState) (m : Memory) :
    (st.setMap m).cdChunkOffsets = st.cdChunkOffsets := rfl
@[simp] theorem setMap_CD (st : DecoderState) (m : Memory) : (st.setMap m).CD = st.CD := rfl
@[simp] theorem setMap_cdBrIndex (st : DecoderState) (m : Memory) : (st.setMap m).cdBrIndex = st.cdBrIndex := rfl
@[simp] theorem setMap_cdBrOffset (st : DecoderState) (m : Memory) : (st.setMap m).cdBrOffset = st.cdBrOffset := rfl
@[simp] theorem setMap_cdBrLength (st : DecoderState) (m : Memory) : (st.setMap m).cdBrLength = st.cdBrLength := rfl
@[simp] theorem setMap_cdBrCopied (st : DecoderState) (m : Memory) : (st.setMap m).cdBrCopied = st.cdBrCopied := rfl
@[simp] theorem setMap_hphase (st : DecoderState) (m : Memory) : (st.setMap m).hphase = st.hphase := rfl
@[simp] theorem setMap_hsub (st : DecoderState) (m : Memory) : (st.setMap m).hsub = st.hsub := rfl
@[simp] theorem setMap_hidx (st : DecoderState) (m : Memory) : (st.setMap m).hidx = st.hidx := rfl
@[simp] theorem setMap_pcActive (st : DecoderState) (m : Memory) : (st.setMap m).pcActive = st.pcActive := rfl
@[simp] theorem setMap_pcPhase (st : DecoderState) (m : Memory) : (st.setMap m).pcPhase = st.pcPhase := rfl
@[simp] theorem setMap_pcAlphaMax (st : DecoderState) (m : Memory) : (st.setMap m).pcAlphaMax = st.pcAlphaMax := rfl
@[simp] theorem setMap_pcAlphaLimit (st : DecoderState) (m : Memory) :
    (st.setMap m).pcAlphaLimit = st.pcAlphaLimit := rfl
@[simp] theorem setMap_pcHskip (st : DecoderState) (m : Memory) : (st.setMap m).pcHskip = st.pcHskip := rfl
@[simp] theorem setMap_clIdx (st : DecoderState) (m : Memory) : (st.setMap m).clIdx = st.clIdx := rfl
@[simp] theorem setMap_clLengths (st : DecoderState) (m : Memory) : (st.setMap m).clLengths = st.clLengths := rfl
@[simp] theorem setMap_clSpace (st : DecoderState) (m : Memory) : (st.setMap m).clSpace = st.clSpace := rfl
@[simp] theorem setMap_clNum (st : DecoderState) (m : Memory) : (st.setMap m).clNum = st.clNum := rfl
@[simp] theorem setMap_codeLengths (st : DecoderState) (m : Memory) : (st.setMap m).codeLengths = st.codeLengths := rfl
@[simp] theorem setMap_symIdx (st : DecoderState) (m : Memory) : (st.setMap m).symIdx = st.symIdx := rfl
@[simp] theorem setMap_prevCodeLen (st : DecoderState) (m : Memory) : (st.setMap m).prevCodeLen = st.prevCodeLen := rfl
@[simp] theorem setMap_repeatCount (st : DecoderState) (m : Memory) : (st.setMap m).repeatCount = st.repeatCount := rfl
@[simp] theorem setMap_repeatCodeLen (st : DecoderState) (m : Memory) :
    (st.setMap m).repeatCodeLen = st.repeatCodeLen := rfl
@[simp] theorem setMap_space (st : DecoderState) (m : Memory) : (st.setMap m).space = st.space := rfl
@[simp] theorem setMap_cmNumTrees (st : DecoderState) (m : Memory) : (st.setMap m).cmNumTrees = st.cmNumTrees := rfl
@[simp] theorem setMap_cmRleMax (st : DecoderState) (m : Memory) : (st.setMap m).cmRleMax = st.cmRleMax := rfl
@[simp] theorem setMap_cmIdx (st : DecoderState) (m : Memory) : (st.setMap m).cmIdx = st.cmIdx := rfl
@[simp] theorem setMap_cmSize (st : DecoderState) (m : Memory) : (st.setMap m).cmSize = st.cmSize := rfl
@[simp] theorem setMap_cmTree (st : DecoderState) (m : Memory) : (st.setMap m).cmTree = st.cmTree := rfl
@[simp] theorem setMap_cmMap (st : DecoderState) (m : Memory) : (st.setMap m).cmMap = m := rfl
@[simp] theorem setMap_outCap (st : DecoderState) (m : Memory) : (st.setMap m).outCap = st.outCap := rfl
@[simp] theorem setMap_outCount (st : DecoderState) (m : Memory) : (st.setMap m).outCount = st.outCount := rfl

end Sys2Proof.Laws
end

