-- ==== Sys2Proof/Laws/Ops.lean ====
section
/-! SUPPORT. What the shared operations can do, each said once: emitting bytes, stepping over chunks, the distance ring,
`Resolve()`, committing and raising. -/

namespace Sys2Proof.Laws

open Sys2Proof.Machine

/-- A complete step is committed (R12). -/
theorem commit_of_start {s : State} (h : s.st.field = .start) : s.commit = { s with ckpt := none } := by
  unfold State.commit; rw [h]

/-- An error raised after bits were consumed takes them back (R12, R440). -/
theorem advance_raise (s : State) (n : Nat) (k : ErrorKind) : (s.advance n).raise k = s.raise k := by
  unfold State.raise State.advance State.base; cases s.ckpt <;> rfl

/-- `Emit` of each byte of `bs`: the history grows by `bs`, and nothing but RB, H and pos changes (R383). -/
theorem emitAll_core (st : DecoderState) (bs : List Byte) (hw : st.RB.wf) (hp : st.pos = st.H.length) :
    (st.emitAll bs).RB.wf ∧ (st.emitAll bs).pos = (st.emitAll bs).H.length ∧ (st.emitAll bs).H = st.H ++ bs ∧
    ∃ rb p h, st.emitAll bs = { st with RB := rb, pos := p, H := h } := by
  unfold DecoderState.emitAll
  induction bs generalizing st with
  | nil => exact ⟨hw, hp, by simp, st.RB, st.pos, st.H, rfl⟩
  | cons b bs ih =>
    obtain ⟨h1, h2, h3, rb, p, h, h4⟩ := ih (st.emit b) (Memory.wf_write hw _ _) (by simp [hp])
    refine ⟨h1, h2, by rw [List.foldl_cons, h3]; simp, rb, p, h, by rw [List.foldl_cons, h4]; rfl⟩

/-- The fence test in one record (R385). -/
theorem fenceTest_eq (st : DecoderState) (r : RunningState) :
    st.fenceTest r =
      { st with
        resumeState := if st.fence ≤ st.pos then r else st.resumeState
        runningState := if st.fence ≤ st.pos then .writeOutput else r } := by
  unfold DecoderState.fenceTest
  by_cases h : st.fence ≤ st.pos
  · rw [if_pos h, if_pos h, if_pos h]
  · rw [if_neg h, if_neg h, if_neg h]

/-- A raised error is complete: the commit leaves it as it is (R440). -/
theorem raise_commit (s : State) (k : ErrorKind) : (s.raise k).commit = s.raise k := rfl

/-- Stepping over chunks moves the copy's chunk and offset only (R375). -/
theorem skipChunks_core (st : DecoderState) (n : Nat) : ∃ i o, st.skipChunks n = { st with cdBrIndex := i, cdBrOffset := o } := by
  induction n generalizing st with
  | zero => exact ⟨_, _, rfl⟩
  | succ n ih =>
    unfold DecoderState.skipChunks
    split
    · obtain ⟨i, o, h⟩ := ih { st with cdBrIndex := st.cdBrIndex + 1, cdBrOffset := 0 }
      exact ⟨i, o, by rw [h]⟩
    · exact ⟨_, _, rfl⟩

/-- A positive distance keeps the ring positive (R323). -/
theorem ring_ge {st : DecoderState} (h : ∀ i : Fin 4, 1 ≤ st.distRing[i]) (d : Nat) (hd : 1 ≤ d) : ∀ i : Fin 4, 1 ≤ (st.pushDistance d).distRing[i] := by
  intro i
  unfold DecoderState.pushDistance
  simp only [Fin.getElem_fin, Vector.getElem_set]
  split
  · exact hd
  · exact h i

/-- Everything `Resolve()` can do (R320 to R324). -/
theorem resolve_cases (s : State) (st : DecoderState) :
    (min st.pos st.maxBackwardDistance < st.distance ∧
      s.resolve st = { s with st := { st with
        maxDistance := min st.pos st.maxBackwardDistance, field := .start, runningState := .useDictionary } }) ∨
    (st.distance ≤ min st.pos st.maxBackwardDistance ∧ st.metaBlockLength < st.copyLength ∧
      s.resolve st = s.raise .copyLengthExceedsBlock) ∨
    (st.distance ≤ min st.pos st.maxBackwardDistance ∧ st.copyLength ≤ st.metaBlockLength ∧
      (st.distImplicit = true ∨ st.distSymbol = 0) ∧
      s.resolve st = { s with st := { st with
        maxDistance := min st.pos st.maxBackwardDistance, field := .start, j := 0, runningState := .copyLoop } }) ∨
    (st.distance ≤ min st.pos st.maxBackwardDistance ∧ st.copyLength ≤ st.metaBlockLength ∧
      st.distImplicit = false ∧ st.distSymbol ≠ 0 ∧
      s.resolve st = { s with st := { st.pushDistance st.distance with
        maxDistance := min st.pos st.maxBackwardDistance, field := .start, j := 0, runningState := .copyLoop } }) := by
  unfold State.resolve
  simp only []
  by_cases h1 : st.distance > min st.pos st.maxBackwardDistance
  · rw [if_pos h1]; exact .inl ⟨h1, rfl⟩
  · rw [if_neg h1]
    by_cases h2 : st.distImplicit = false ∧ st.distSymbol ≠ 0
    · rw [if_pos h2]
      by_cases h3 : st.copyLength > st.metaBlockLength
      · exact .inr (.inl ⟨by omega, h3, if_pos h3⟩)
      · exact .inr (.inr (.inr ⟨by omega, by omega, h2.1, h2.2, if_neg h3⟩))
    · rw [if_neg h2]
      by_cases h3 : st.copyLength > st.metaBlockLength
      · exact .inr (.inl ⟨by omega, h3, if_pos h3⟩)
      · refine .inr (.inr (.inl ⟨by omega, by omega, ?_, if_neg h3⟩))
        cases h : st.distImplicit
        · exact .inr (by_contra fun hh => h2 ⟨h, hh⟩)
        · exact .inl rfl

end Sys2Proof.Laws
end

