-- ==== Sys2Proof/Laws/Step.lean ====
section
/-! SUPPORT. Everything one step can do (`step_cases`), and what the control position says of the element that is next
(`fetch_at`). -/

namespace Sys2Proof.Laws

open Sys2Proof.Machine

/-- The outcomes of a step that goes on: idle, an element step without a row, a pull, an error found while reading, or a
row of the element that is next. -/
theorem step_cases {s t : State} (h : step s = .next t) :
    (s.fetch = .idle ∧ t = s) ∨
    (∃ op, s.fetch = .internal op ∧ t = (op.run s).commit) ∨
    (∃ c, s.fetch = .element c ∧ (s.wantsLookahead c = true ∨ decode c (s.window c) = .need) ∧ t = s.pull) ∨
    (∃ c k, s.fetch = .element c ∧ decode c (s.window c) = .bad (.error k) ∧ t = s.raise k) ∨
    (∃ c i n u, s.fetch = .element c ∧ decode c (s.window c) = .ok i n ∧ exec i (s.take c n) = .next u ∧
      Effect (s.take c n) c u ∧ t = u.commit) := by
  unfold step at h
  split at h
  · cases h; exact .inl ⟨‹_›, rfl⟩
  · cases h
  · cases h; exact .inr (.inl ⟨_, ‹_›, rfl⟩)
  · split at h
    · cases h; exact .inr (.inr (.inl ⟨_, ‹_›, .inl ‹_›, rfl⟩))
    · split at h
      · cases h; exact .inr (.inr (.inl ⟨_, ‹_›, .inr ‹_›, rfl⟩))
      · cases h; exact .inr (.inr (.inr (.inl ⟨_, _, ‹_›, ‹_›, rfl⟩)))
      · cases h
      · cases h
      · obtain ⟨u, hu, he⟩ := effect_of_decode ‹_› (s.take _ _)
        rw [hu] at h
        cases h
        exact .inr (.inr (.inr (.inr ⟨_, _, _, _, ‹_›, ‹_›, hu, he, rfl⟩)))

/-- What the control position is when element `c` is next. -/
def At (st : DecoderState) (c : Ctx) : Prop :=
  match c with
  | .hostCommand _ _ _ => False
  | .streamHeader large => st.runningState = .initialized ∧ large = st.cfgLargeWindow
  | .isLast => st.runningState = .metablockHeader ∧ st.field = .start
  | .isLastEmpty => st.runningState = .metablockHeader ∧ st.field = .isLastEmpty
  | .mnibbles => st.runningState = .metablockHeader ∧ st.field = .mnibbles
  | .mlen n => st.runningState = .metablockHeader ∧ st.field = .mlen n
  | .isUncompressed => st.runningState = .metablockHeader ∧ st.field = .isUncompressed
  | .reserved => st.runningState = .metablockHeader ∧ st.field = .reserved
  | .mskipbytes => st.runningState = .metablockHeader ∧ st.field = .mskipbytes
  | .mskiplen n => st.runningState = .metablockHeader ∧ st.field = .mskiplen n
  | .pad width => st.runningState = .metablockHeader ∧ st.field = .pad ∧ width = st.padWidth
  | .finalPad width => st.runningState = .finished ∧ st.field = .start ∧ width = st.padWidth
  | .raw => st.runningState = .uncompressed ∧ st.metaBlockLength ≠ 0 ∧ st.bitpos % 8 = 0
  | .skip => st.runningState = .metadata ∧ st.metaBlockLength ≠ 0 ∧ st.bitpos % 8 = 0
  | .varlen8 => st.runningState = .metablockHuffmanData ∧ st.pcActive = false ∧ st.hsub = 0 ∧ st.field = .start ∧
      (st.hphase = .partL ∨ st.hphase = .partI ∨ st.hphase = .partD ∨ st.hphase = .cmapL ∨ st.hphase = .cmapD)
  | .nbltypes v => st.runningState = .metablockHuffmanData ∧ st.pcActive = false ∧ st.hsub = 0 ∧
      st.field = .varlenResult v ∧ (st.hphase = .partL ∨ st.hphase = .partI ∨ st.hphase = .partD)
  | .ntrees v => st.runningState = .metablockHuffmanData ∧ st.pcActive = false ∧ st.hsub = 0 ∧
      st.field = .varlenResult v ∧ (st.hphase = .cmapL ∨ st.hphase = .cmapD)
  | .npostfix => st.runningState = .metablockHuffmanData ∧ st.pcActive = false ∧ st.hphase = .distParams ∧
      st.field = .start
  | .ndirecthi => st.runningState = .metablockHuffmanData ∧ st.pcActive = false ∧ st.hphase = .distParams ∧
      st.field = .ndirecthi
  | .cmode => st.runningState = .metablockHuffmanData ∧ st.pcActive = false ∧ st.hphase = .ctxModes
  | .rlemaxflag => st.runningState = .metablockHuffmanData ∧ st.pcActive = false ∧ st.hsub = 1 ∧ st.field = .start ∧
      (st.hphase = .cmapL ∨ st.hphase = .cmapD)
  | .rlemaxm1 => st.runningState = .metablockHuffmanData ∧ st.pcActive = false ∧ st.hsub = 1 ∧ st.field = .rlemaxm1 ∧
      (st.hphase = .cmapL ∨ st.hphase = .cmapD)
  | .cmap T r => st.runningState = .metablockHuffmanData ∧ st.pcActive = false ∧ st.hsub = 3 ∧ st.field = .start ∧
      T = st.cmTree ∧ r = st.cmRleMax ∧ (st.hphase = .cmapL ∨ st.hphase = .cmapD)
  | .imtf => st.runningState = .metablockHuffmanData ∧ st.pcActive = false ∧ st.hsub = 4 ∧ st.field = .start ∧
      (st.hphase = .cmapL ∨ st.hphase = .cmapD)
  | .hskip => st.runningState = .metablockHuffmanData ∧ st.pcActive = true ∧ st.pcPhase = .start ∧ st.field = .start
  | .nsymm1 => st.runningState = .metablockHuffmanData ∧ st.pcActive = true ∧ st.pcPhase = .start ∧ st.field = .nsymm1
  | .symbol width => st.runningState = .metablockHuffmanData ∧ st.pcActive = true ∧ st.pcPhase = .start ∧
      width = abits st.pcAlphaMax ∧ ∃ n r, st.field = .symbol n r
  | .treeselect => st.runningState = .metablockHuffmanData ∧ st.pcActive = true ∧ st.pcPhase = .start ∧
      ∃ r, st.field = .treeSelect r
  | .cllen => st.runningState = .metablockHuffmanData ∧ st.pcActive = true ∧ st.pcPhase = .clLengths
  | .clsym T => st.runningState = .metablockHuffmanData ∧ st.pcActive = true ∧ st.pcPhase = .symLengths ∧ T = st.clTree
  | .btype T => (T = st.blockTypeTree.get st.cat ∧ 2 ≤ st.numBlockTypes.get st.cat) ∧
      ((st.runningState = .mainLoop ∨ st.runningState = .insertLoop) ∧ st.field = .start ∧ st.metaBlockLength ≠ 0 ∨
        st.runningState = .insertLoop ∧ st.field = .start ∧ st.j < st.insertLength)
  | .blen _ => (st.runningState = .metablockHuffmanData ∧ st.pcActive = false ∧ st.hsub = 3 ∧ st.field = .start ∧
      (st.hphase = .partL ∨ st.hphase = .partI ∨ st.hphase = .partD)) ∨
      ((st.runningState = .mainLoop ∨ st.runningState = .insertLoop) ∧ ∃ t, st.field = .blockCount t)
  | .cmd _ => st.runningState = .mainLoop ∧ st.field = .start ∧ st.metaBlockLength ≠ 0
  | .insLen code => st.runningState = .mainLoop ∧ st.field = .insLen ∧ code = insertCode st.cmdCode
  | .copyLen code => st.runningState = .mainLoop ∧ st.field = .copyLen ∧ code = copyCode st.cmdCode
  | .lit _ => st.runningState = .insertLoop ∧ st.field = .start ∧ st.j < st.insertLength
  | .distImplicit => st.runningState = .insertLoop ∧ st.field = .start ∧ st.insertLength ≤ st.j ∧
      st.metaBlockLength ≠ 0 ∧ st.distImplicit = true
  | .dist _ np nd => st.runningState = .insertLoop ∧ st.field = .start ∧ st.insertLength ≤ st.j ∧
      st.metaBlockLength ≠ 0 ∧ st.distImplicit = false ∧ np = st.npostfix ∧ nd = st.ndirect
  | .transform n => st.runningState = .useDictionary ∧ st.staticReference = some n

theorem withTree_element {g : List HuffmanTable} {i : Nat} {f : HuffmanTable → Ctx} {c : Ctx}
    (h : withTree g i f = .element c) : ∃ T, g[i]? = some T ∧ c = f T := by
  unfold withTree at h
  split at h
  · cases h
  · cases h; exact ⟨_, ‹_›, rfl⟩

theorem fetchSymbol_element {st : DecoderState} {k : Cat} {next : Fetched} {c : Ctx}
    (h : st.fetchSymbol k next = .element c) :
    (c = .btype (st.blockTypeTree.get k) ∧ st.blockLength.get k = 0 ∧ 2 ≤ st.numBlockTypes.get k) ∨
      next = .element c := by
  unfold DecoderState.fetchSymbol at h
  split at h
  · cases h; exact .inl ⟨rfl, ‹_›⟩
  · exact .inr h

theorem fetchPartition_at {st : DecoderState} {k : Cat} {c : Ctx} (h : st.fetchPartition k = .element c)
    (hr : st.runningState = .metablockHuffmanData) (ha : st.pcActive = false)
    (hp : st.hphase = .partL ∨ st.hphase = .partI ∨ st.hphase = .partD) : At st c := by
  unfold DecoderState.fetchPartition at h
  split at h <;> cases h
  · exact ⟨hr, ha, ‹_›, ‹_›, by tauto⟩
  · exact ⟨hr, ha, ‹_›, ‹_›, hp⟩
  · exact .inl ⟨hr, ha, ‹_›, ‹_›, hp⟩

theorem fetchMap_at {st : DecoderState} {c : Ctx} (h : st.fetchMap = .element c)
    (hr : st.runningState = .metablockHuffmanData) (ha : st.pcActive = false)
    (hp : st.hphase = .cmapL ∨ st.hphase = .cmapD) : At st c := by
  unfold DecoderState.fetchMap at h
  split at h <;> cases h
  · exact ⟨hr, ha, ‹_›, ‹_›, by tauto⟩
  · exact ⟨hr, ha, ‹_›, ‹_›, hp⟩
  · exact ⟨hr, ha, ‹_›, ‹_›, hp⟩
  · exact ⟨hr, ha, ‹_›, ‹_›, hp⟩
  · exact ⟨hr, ha, ‹_›, ‹_›, rfl, rfl, hp⟩
  · exact ⟨hr, ha, ‹_›, ‹_›, hp⟩

theorem fetchHuffmanData_at {st : DecoderState} {c : Ctx} (h : st.fetchHuffmanData = .element c)
    (hr : st.runningState = .metablockHuffmanData) : At st c := by
  unfold DecoderState.fetchHuffmanData at h
  split at h
  · unfold DecoderState.fetchPrefixCode at h
    split at h
    · split at h <;> cases h
      · exact ⟨hr, ‹_›, ‹_›, ‹_›⟩
      · exact ⟨hr, ‹_›, ‹_›, ‹_›⟩
      · exact ⟨hr, ‹_›, ‹_›, rfl, _, _, ‹_›⟩
      · exact ⟨hr, ‹_›, ‹_›, _, ‹_›⟩
    · cases h; exact ⟨hr, ‹_›, ‹_›⟩
    · cases h; exact ⟨hr, ‹_›, ‹_›, rfl⟩
  · have ha : st.pcActive = false := Bool.eq_false_iff.mpr ‹¬st.pcActive = true›
    split at h
    · exact fetchPartition_at h hr ha (by tauto)
    · exact fetchPartition_at h hr ha (by tauto)
    · exact fetchPartition_at h hr ha (by tauto)
    · split at h <;> cases h
      · exact ⟨hr, ha, ‹_›, ‹_›⟩
      · exact ⟨hr, ha, ‹_›, ‹_›⟩
    · cases h; exact ⟨hr, ha, ‹_›⟩
    · exact fetchMap_at h hr ha (by tauto)
    · exact fetchMap_at h hr ha (by tauto)
    all_goals cases h

theorem fetchMainLoop_at {st : DecoderState} {c : Ctx} (h : st.fetchMainLoop = .element c)
    (hr : st.runningState = .mainLoop) : At st c := by
  unfold DecoderState.fetchMainLoop at h
  split at h
  · split at h
    · cases h
    · rcases fetchSymbol_element h with ⟨rfl, -, h2⟩ | h
      · have hk : st.cat = .I := by simp [DecoderState.cat, hr]
        exact ⟨by rw [hk]; exact ⟨rfl, h2⟩, .inl ⟨.inl hr, ‹_›, ‹_›⟩⟩
      · obtain ⟨T, -, rfl⟩ := withTree_element h
        exact ⟨hr, ‹_›, ‹_›⟩
  · cases h; exact .inr ⟨.inl hr, _, ‹_›⟩
  · cases h; exact ⟨hr, ‹_›, rfl⟩
  · cases h; exact ⟨hr, ‹_›, rfl⟩
  · cases h

theorem fetchInsertLoop_at {st : DecoderState} {c : Ctx} (h : st.fetchInsertLoop = .element c)
    (hr : st.runningState = .insertLoop) : At st c := by
  unfold DecoderState.fetchInsertLoop at h
  split at h
  · split at h
    · rcases fetchSymbol_element h with ⟨rfl, -, h2⟩ | h
      · have hk : st.cat = .L := by simp [DecoderState.cat, hr, ‹st.j < st.insertLength›]
        exact ⟨by rw [hk]; exact ⟨rfl, h2⟩, .inr ⟨hr, ‹_›, ‹_›⟩⟩
      · obtain ⟨T, -, rfl⟩ := withTree_element h
        exact ⟨hr, ‹_›, ‹_›⟩
    · split at h
      · cases h
      · split at h
        · cases h; exact ⟨hr, ‹_›, by omega, ‹_›, ‹_›⟩
        · have hd : st.distImplicit = false := by simpa using ‹¬st.distImplicit = true›
          rcases fetchSymbol_element h with ⟨rfl, -, h2⟩ | h
          · have hk : st.cat = .D := by simp [DecoderState.cat, hr, ‹¬st.j < st.insertLength›]
            exact ⟨by rw [hk]; exact ⟨rfl, h2⟩, .inl ⟨.inr hr, ‹_›, ‹_›⟩⟩
          · obtain ⟨T, -, rfl⟩ := withTree_element h
            exact ⟨hr, ‹_›, by omega, ‹_›, hd, rfl, rfl⟩
  · cases h; exact .inr ⟨.inr hr, _, ‹_›⟩
  · cases h

/-- The element that is next inside a `Decompress` says what the control position is (R409). -/
theorem fetch_at {st : DecoderState} {c : Ctx} (h : st.fetch = .element c) : At st c := by
  unfold DecoderState.fetch at h
  split at h
  · cases h; exact ⟨‹_›, rfl⟩
  · cases h
  · unfold DecoderState.fetchHeader at h
    split at h <;> cases h
    · exact ⟨‹_›, ‹_›⟩
    · exact ⟨‹_›, ‹_›⟩
    · exact ⟨‹_›, ‹_›⟩
    · exact ⟨‹_›, ‹_›⟩
    · exact ⟨‹_›, ‹_›⟩
    · exact ⟨‹_›, ‹_›⟩
    · exact ⟨‹_›, ‹_›⟩
    · exact ⟨‹_›, ‹_›⟩
    · exact ⟨‹_›, ‹_›, rfl⟩
  · unfold DecoderState.fetchByte at h
    split at h
    · cases h
    · split at h
      · cases h
      · cases h; exact ⟨‹_›, ‹_›, by omega⟩
  · unfold DecoderState.fetchByte at h
    split at h
    · cases h
    · split at h
      · cases h
      · cases h; exact ⟨‹_›, ‹_›, by omega⟩
  · exact fetchHuffmanData_at h ‹_›
  · exact fetchMainLoop_at h ‹_›
  · exact fetchInsertLoop_at h ‹_›
  · unfold DecoderState.fetchCopy at h
    split at h <;> cases h
  · unfold DecoderState.fetchDictionary at h
    split at h <;> cases h
    exact ⟨‹_›, ‹_›⟩
  · unfold DecoderState.fetchCompound at h
    split at h <;> cases h
  · cases h
  · unfold DecoderState.fetchFinished at h
    split at h <;> cases h
    exact ⟨‹_›, ‹_›, rfl⟩
  all_goals cases h

/-- What the control position is when the element step without a row `op` is next. -/
def AtInternal (st : DecoderState) (op : Internal) : Prop :=
  match op with
  | .blockStart => st.runningState = .blockStart
  | .endOfBlock => (st.runningState = .mainLoop ∧ st.field = .start ∨ st.runningState = .uncompressed ∨
      st.runningState = .metadata) ∧ st.metaBlockLength = 0
  | .finalize => st.runningState = .metablockHuffmanData ∧ st.pcActive = false ∧ st.hphase = .finalize
  | .literalsDone => st.runningState = .insertLoop ∧ st.field = .start ∧ st.insertLength ≤ st.j ∧
      st.metaBlockLength = 0
  | .copy => st.runningState = .copyLoop ∧ (st.j = st.copyLength ∨ st.distance ≠ 0 ∧ st.distance ≤ st.pos)
  | .useDictionary => st.runningState = .useDictionary ∧ st.staticReference = none
  | .compoundCopy => st.runningState = .compoundDictionaryCopy ∧
      (st.cdBrCopied = st.cdBrLength ∨ st.cdAddress < st.CD.length)
  | .writeOutput => st.runningState = .writeOutput
  | .atEnd => st.runningState = .finished ∧ st.field = .atEnd

/-- The element step without a row that is next says what the control position is (R409). -/
theorem fetch_atInternal {st : DecoderState} {op : Internal} (h : st.fetch = .internal op) : AtInternal st op := by
  unfold DecoderState.fetch at h
  split at h
  · cases h
  · cases h; exact ‹_›
  · unfold DecoderState.fetchHeader at h
    split at h <;> cases h
  · unfold DecoderState.fetchByte at h
    split at h
    · cases h; exact ⟨by tauto, ‹_›⟩
    · split at h <;> cases h
  · unfold DecoderState.fetchByte at h
    split at h
    · cases h; exact ⟨by tauto, ‹_›⟩
    · split at h <;> cases h
  · unfold DecoderState.fetchHuffmanData at h
    split at h
    · unfold DecoderState.fetchPrefixCode at h
      split at h
      · split at h <;> cases h
      · cases h
      · cases h
    · have ha : st.pcActive = false := Bool.eq_false_iff.mpr ‹¬st.pcActive = true›
      split at h
      · unfold DecoderState.fetchPartition at h; split at h <;> cases h
      · unfold DecoderState.fetchPartition at h; split at h <;> cases h
      · unfold DecoderState.fetchPartition at h; split at h <;> cases h
      · split at h <;> cases h
      · cases h
      · unfold DecoderState.fetchMap at h; split at h <;> cases h
      · unfold DecoderState.fetchMap at h; split at h <;> cases h
      · cases h
      · cases h
      · cases h
      · cases h; exact ⟨‹_›, ha, ‹_›⟩
  · unfold DecoderState.fetchMainLoop at h
    split at h
    · split at h
      · cases h; exact ⟨.inl ⟨‹_›, ‹_›⟩, ‹_›⟩
      · unfold DecoderState.fetchSymbol withTree at h
        split at h
        · cases h
        · split at h <;> cases h
    all_goals cases h
  · unfold DecoderState.fetchInsertLoop at h
    split at h
    · split at h
      · unfold DecoderState.fetchSymbol withTree at h
        split at h
        · cases h
        · split at h <;> cases h
      · split at h
        · cases h; exact ⟨‹_›, ‹_›, by omega, ‹_›⟩
        · split at h
          · cases h
          · unfold DecoderState.fetchSymbol withTree at h
            split at h
            · cases h
            · split at h <;> cases h
    all_goals cases h
  · unfold DecoderState.fetchCopy at h
    split at h <;> cases h
    exact ⟨‹_›, by omega⟩
  · unfold DecoderState.fetchDictionary at h
    split at h <;> cases h
    exact ⟨‹_›, ‹_›⟩
  · unfold DecoderState.fetchCompound at h
    split at h <;> cases h
    exact ⟨‹_›, by omega⟩
  · cases h; exact ‹_›
  · unfold DecoderState.fetchFinished at h
    split at h <;> cases h
    exact ⟨‹_›, ‹_›⟩
  all_goals cases h

/-- Outside a `Decompress` the machine is idle or takes the host's next command (R11, R400). -/
theorem fetch_of_idle {s : State} (h : s.inCall = false) :
    s.script = [] ∧ s.fetch = .idle ∨
      ∃ cmd rest, s.script = cmd :: rest ∧ s.fetch = .element (.hostCommand cmd.source cmd.chunk cmd.cap) := by
  unfold State.fetch
  rw [h]
  cases hs : s.script with
  | nil => exact .inl ⟨rfl, rfl⟩
  | cons cmd rest => exact .inr ⟨cmd, rest, rfl, rfl⟩

/-- Inside a `Decompress` the engine's control position says what fires (R409). -/
theorem fetch_of_inCall {s : State} (h : s.inCall = true) : s.fetch = s.st.fetch := by
  unfold State.fetch; rw [h]; rfl

end Sys2Proof.Laws
end

