-- ==== Sys2Proof/Laws/Invariant.lean ====
section
/-! SUPPORT. The parts of an invariance proof: `Kept` and `Calm` say what the operations leave alone, `inv_*` that each kind
of step keeps `BaseInv`. -/

namespace Sys2Proof.Laws

open Sys2Proof.Machine

set_option linter.unusedSimpArgs false

/-- The registers `RegsInv` speaks of are the same, the control position apart. -/
structure Kept (a b : DecoderState) : Prop where
  ringBuffer : b.RB = a.RB
  contextModes : b.contextModes = a.contextModes
  contextMapL : b.contextMapL = a.contextMapL
  contextMapD : b.contextMapD = a.contextMapD
  cmMap : b.cmMap = a.cmMap
  clLengths : b.clLengths = a.clLengths
  codeLengths : b.codeLengths = a.codeLengths
  pos : b.pos = a.pos
  H : b.H = a.H
  flushed : b.flushed = a.flushed
  metaBlockLength : b.metaBlockLength = a.metaBlockLength
  distRing : b.distRing = a.distRing
  cdNumChunks : b.cdNumChunks = a.cdNumChunks
  distance : b.distance = a.distance
  maxDistance : b.maxDistance = a.maxDistance
  outCount : b.outCount = a.outCount

theorem Kept.trans {a b c} (h : Kept a b) (h' : Kept b c) : Kept a c := by
  cases h; cases h'; constructor <;> simp_all

theorem regs_of_kept {a b : DecoderState} (h : RegsInv a) (k : Kept a b)
    (hd : b.runningState = .useDictionary → a.runningState = .useDictionary)
    (hw : b.runningState = .writeOutput → b.resumeState.resumable = true) (hf : b.FieldFits) : RegsInv b := by
  constructor
  · rw [k.ringBuffer]; exact h.ringBuffer
  · rw [k.contextModes]; exact h.contextModes
  · rw [k.contextMapL]; exact h.contextMapL
  · rw [k.contextMapD]; exact h.contextMapD
  · rw [k.cmMap]; exact h.cmMap
  · rw [k.clLengths]; exact h.clLengths
  · rw [k.codeLengths]; exact h.codeLengths
  · rw [k.pos, k.H]; exact h.produced
  · rw [k.pos, k.flushed]; exact h.delivered
  · rw [k.metaBlockLength]; exact h.blockBound
  · simp only [k.distRing]; exact h.distances
  · rw [k.cdNumChunks]; exact h.chunks
  · intro hh; rw [k.maxDistance, k.distance]; exact h.dictionary (hd hh)
  · exact hw
  · exact hf

theorem kept_startCode (st : DecoderState) (a l : Nat) : Kept st (st.startCode a l) := by
  constructor <;> rfl
theorem kept_enterPhase (st : DecoderState) (p) : Kept st (st.enterPhase p) := by
  cases p <;> constructor <;> rfl

theorem kept_deliverPartition (st : DecoderState) (k T) : Kept st (st.deliverPartition k T) := by
  unfold DecoderState.deliverPartition; split <;> constructor <;> rfl

theorem kept_deliver (st : DecoderState) (T) : Kept st (st.deliver T) := by
  unfold DecoderState.deliver
  split
  · exact kept_deliverPartition ..
  · exact kept_deliverPartition ..
  · exact kept_deliverPartition ..
  · constructor <;> rfl
  · constructor <;> rfl
  · simp only []; split
    · constructor <;> rfl
    · exact Kept.trans (b := { st with literalTrees := st.literalTrees ++ [T], hidx := st.hidx + 1 }) (by constructor <;> rfl) (kept_enterPhase ..)
  · simp only []; split
    · constructor <;> rfl
    · exact Kept.trans (b := { st with commandTrees := st.commandTrees ++ [T], hidx := st.hidx + 1 }) (by constructor <;> rfl) (kept_enterPhase ..)
  · simp only []; split
    · constructor <;> rfl
    · exact Kept.trans (b := { st with distanceTrees := st.distanceTrees ++ [T], hidx := st.hidx + 1 }) (by constructor <;> rfl) (kept_enterPhase ..)
  all_goals constructor <;> rfl

theorem kept_afterPartition (st : DecoderState) (k) : Kept st (st.afterPartition k) := by
  unfold DecoderState.afterPartition; cases k <;> exact kept_enterPhase _ _

theorem deliver_run (st : DecoderState) (T) : (st.deliver T).runningState = st.runningState ∧ (st.deliver T).field = st.field ∧ (st.deliver T).bitpos = st.bitpos ∧ (st.deliver T).resumeState = st.resumeState := by
  unfold DecoderState.deliver
  split <;> (try unfold DecoderState.deliverPartition) <;> (try simp only []) <;> (try split) <;> simp
theorem afterPartition_run (st : DecoderState) (T) : (st.afterPartition T).runningState = st.runningState ∧ (st.afterPartition T).field = st.field ∧ (st.afterPartition T).bitpos = st.bitpos ∧ (st.afterPartition T).resumeState = st.resumeState := by
  cases T <;> exact ⟨rfl,rfl,rfl,rfl⟩

theorem fits_start {st : DecoderState} (h : st.field = .start) : st.FieldFits := by
  unfold DecoderState.FieldFits; rw [h]; trivial

theorem inv_base {s : State} (hi : BaseInv s) : RegsInv s.base ∧ s.base.H = s.st.H ∧ s.base.flushed = s.st.flushed ∧ s.base.bitpos ≤ s.st.bitpos ∧ s.base.field = .start ∧ s.base.runningState = s.st.runningState ∧ s.base.outCount = s.st.outCount := by
  unfold State.base
  cases h : s.ckpt with
  | none => exact ⟨hi.regs, rfl, rfl, le_rfl, hi.whole h, rfl, rfl⟩
  | some c => have b := hi.began c h; exact ⟨b.regs, b.history, b.delivered, b.cursor, b.field, b.state, b.written⟩

theorem regs_error {st : DecoderState} (h : RegsInv st) (k) : RegsInv { st with runningState := .error k, field := .start } := by
  refine regs_of_kept h (by constructor <;> rfl) (by simp) (by simp) (fits_start rfl)
theorem regs_start {st : DecoderState} (h : RegsInv st) : RegsInv { st with field := .start } := by
  refine regs_of_kept h (by constructor <;> rfl) (by simp) (fun hh => h.resume hh) (fits_start rfl)

theorem inv_commit {s : State} (hi : BaseInv s) : BaseInv s.commit := by
  unfold State.commit
  split
  · obtain ⟨⟩ := hi
    constructor <;> simp_all
  · exact hi

theorem inv_raise {s : State} (hi : BaseInv s) (k) : BaseInv (s.raise k) := by
  obtain ⟨hr, hH, hf, hb, hst, -⟩ := inv_base hi
  constructor
  · simp; exact regs_error hr k
  · simp
  · simp
  · simp
  · simp; exact hi.supplied
  · simp; exact le_trans hb hi.cursor
  · simp; rw [hH, hf]; exact hi.output
  · simp

theorem inv_suspend {s : State} (hi : BaseInv s) : BaseInv s.suspend := by
  obtain ⟨hr, hH, hf, hb, hst, -⟩ := inv_base hi
  constructor
  · simp; exact regs_start hr
  · simp
  · simp
  · simp
  · simp; exact hi.supplied
  · simp; exact le_trans hb hi.cursor
  · simp; rw [hH, hf]; exact hi.output
  · simp

theorem inv_source {s : State} (hi : BaseInv s) (src : List SourceAnswer) (e f : Bool) : BaseInv { s with source := src, srcEOF := e, srcFail := f } := by
  obtain ⟨⟩ := hi; constructor <;> simp_all

theorem inv_pull {s : State} (hi : BaseInv s) : BaseInv s.pull := by
  unfold State.pull
  split
  · exact inv_suspend hi
  · exact inv_suspend (inv_source hi _ s.srcEOF s.srcFail)
  · exact inv_source hi s.source true s.srcFail
  · exact inv_raise (inv_source hi _ s.srcEOF true) _
  · exact inv_suspend (inv_source hi _ s.srcEOF s.srcFail)
  · obtain ⟨⟩ := hi
    constructor <;> simp_all
    omega

/-- `n` more bits consumed, the registers then being `st'`. -/
theorem inv_of_regs {s : State} (hi : BaseInv s) {n : Nat} (hn : n ≤ s.bitsHeld) (hc : s.inCall = true) {st' : DecoderState} (hr : RegsInv st')
    {bs} (hH : st'.H = s.st.H ++ bs) (hf : st'.flushed = s.st.flushed) (hb : st'.bitpos = s.st.bitpos + n)
    (hm : st'.field ≠ .start → st'.runningState = s.st.runningState ∧ bs = [])
    (ho : st'.outCount = s.st.outCount := by first | rfl | simp) : BaseInv ({ s.advance n with st := st' } : State).commit := by
  obtain ⟨br, bH, bf, bb, bst, brs, bo⟩ := inv_base hi
  have hcur := hi.cursor
  have hnn : st'.bitpos ≤ 8 * s.inLen := by unfold State.bitsHeld at hn; omega
  have hout : s.OUT = st'.H.take st'.flushed := by
    rw [hH, hf, hi.output, List.take_append_of_le_length]
    rw [← hi.regs.produced]; exact hi.regs.delivered
  by_cases h : st'.field = .start
  · have : ({ s.advance n with st := st' } : State).commit = { s.advance n with st := st', ckpt := none } := by
      unfold State.commit; rw [h]
    rw [this]
    constructor
    · exact hr
    · simp
    · intro; exact h
    · simp
    · exact hi.supplied
    · exact hnn
    · exact hout
    · exact fun h => (hi.buffer h).trans ho.symm
  · have : ({ s.advance n with st := st' } : State).commit = { s.advance n with st := st' } := by
      unfold State.commit; split
      · exact absurd ‹_› h
      · rfl
    rw [this]
    obtain ⟨h1, rfl⟩ := hm h
    constructor
    · exact hr
    · intro c hcc
      obtain rfl : s.base = c := by simpa using hcc
      refine ⟨br, bst, by rw [brs]; exact h1.symm, by rw [bH]; simpa using hH.symm, by rw [bf]; exact hf.symm, by rw [bo]; exact ho.symm, by show _ ≤ st'.bitpos; omega⟩
    · intro hh; cases hh
    · intro hh; rw [show ({ s.advance n with st := st' } : State).inCall = s.inCall from rfl, hc] at hh; cases hh
    · exact hi.supplied
    · exact hnn
    · exact hout
    · exact fun h => (hi.buffer h).trans ho.symm

/-- `RegsInv`, whatever field comes next. -/
def Core (st : DecoderState) : Prop := RegsInv { st with field := .start }
theorem core_of_regs {st : DecoderState} (h : RegsInv st) : Core st := regs_start h
theorem regs_of_core {st : DecoderState} (h : Core st) (f : st.FieldFits) : RegsInv st :=
  regs_of_kept h (by constructor <;> rfl) (fun h => h) (fun h' => h.resume h') f

/-- The operation keeps `RegsInv` and moves neither the cursor nor the control state nor the output. -/
structure Calm (a b : DecoderState) : Prop where
  core : Core a → Core b
  H : b.H = a.H
  flushed : b.flushed = a.flushed
  bitpos : b.bitpos = a.bitpos
  outCount : b.outCount = a.outCount
  run : b.runningState = a.runningState

theorem Calm.trans {a b c} (h : Calm a b) (h' : Calm b c) : Calm a c :=
  ⟨fun x => h'.core (h.core x), by rw [h'.H, h.H], by rw [h'.flushed, h.flushed], by rw [h'.bitpos, h.bitpos], by rw [h'.outCount, h.outCount], by rw [h'.run, h.run]⟩

theorem calm_of_kept {a b} (k : Kept a b) (hr : b.runningState = a.runningState) (hs : b.resumeState = a.resumeState)
    (hb : b.bitpos = a.bitpos) : Calm a b := by
  refine ⟨fun h => ?_, k.H, k.flushed, hb, k.outCount, hr⟩
  refine regs_of_kept (a := { a with field := .start }) h ?_ ?_ ?_ (fits_start rfl)
  · obtain ⟨⟩ := k; constructor <;> assumption
  · show b.runningState = _ → a.runningState = _; rw [hr]; exact id
  · intro hh; show b.resumeState.resumable = true; rw [hs]; exact h.resume (by rw [← hh]; exact hr.symm)

theorem calm_startCode (st : DecoderState) (a l) : Calm st (st.startCode a l) := calm_of_kept (kept_startCode ..) rfl rfl rfl
theorem calm_enterPhase (st : DecoderState) (p) : Calm st (st.enterPhase p) := calm_of_kept (kept_enterPhase ..) (by simp) (by simp) (by simp)
theorem calm_deliver (st : DecoderState) (T) : Calm st (st.deliver T) :=
  calm_of_kept (kept_deliver ..) (deliver_run ..).1 (deliver_run ..).2.2.2 (deliver_run ..).2.2.1
theorem calm_afterPartition (st : DecoderState) (k) : Calm st (st.afterPartition k) :=
  calm_of_kept (kept_afterPartition ..) (afterPartition_run ..).1 (afterPartition_run ..).2.2.2 (afterPartition_run ..).2.2.1
/-- Writing the map being read. -/
theorem calm_setMap (st : DecoderState) {m} (hm : Core st → Memory.wf m) : Calm st (st.setMap m) :=
  ⟨fun h => { h with cmMap := hm h, field := fits_start rfl, resume := h.resume, dictionary := h.dictionary }, rfl, rfl,
    rfl, rfl, rfl⟩
theorem calm_endMap (st : DecoderState) : Calm st st.endMap := by
  unfold DecoderState.endMap; split
  · refine Calm.trans (b := { st with
      numLiteralTrees := st.cmNumTrees
      contextMapL := st.contextMapL.writeAll 0 (st.cmMap.toBytes st.cmSize) }) ⟨fun h => ?_, rfl, rfl, rfl, rfl, rfl⟩ (calm_enterPhase _ _)
    exact { h with contextMapL := Memory.wf_writeAll h.contextMapL _ _, field := fits_start rfl, resume := h.resume, dictionary := h.dictionary }
  · refine Calm.trans (b := { st with
      numDistTrees := st.cmNumTrees
      contextMapD := st.contextMapD.writeAll 0 (st.cmMap.toBytes st.cmSize) }) ⟨fun h => ?_, rfl, rfl, rfl, rfl, rfl⟩ (calm_enterPhase _ _)
    exact { h with contextMapD := Memory.wf_writeAll h.contextMapD _ _, field := fits_start rfl, resume := h.resume, dictionary := h.dictionary }

theorem field_endMap (st : DecoderState) : st.endMap.field = st.field := by
  unfold DecoderState.endMap; split <;> simp

theorem inv_of_calm {s : State} (hi : BaseInv s) {n : Nat} (hn : n ≤ s.bitsHeld) (hc : s.inCall = true) {st' : DecoderState}
    (k : Calm (s.advance n).st st') (hf : st'.FieldFits) : BaseInv ({ s.advance n with st := st' } : State).commit :=
  inv_of_regs hi hn hc (regs_of_core (k.core (regs_start (regs_of_kept hi.regs (by constructor <;> rfl) (fun h => h) hi.regs.resume (by exact hi.regs.field)))) hf) (bs := [])
    (by simpa using k.H) k.flushed (by rw [k.bitpos]; rfl) (fun _ => ⟨k.run, rfl⟩) k.outCount
theorem inv_of_calm_start {s : State} (hi : BaseInv s) {n : Nat} (hn : n ≤ s.bitsHeld) (hc : s.inCall = true) {st' : DecoderState}
    (k : Calm (s.advance n).st st') (hf : st'.field = .start) : BaseInv ({ s.advance n with st := st' } : State).commit :=
  inv_of_calm hi hn hc k (fits_start hf)

theorem inv_of_kept {s : State} (hi : BaseInv s) {n : Nat} (hn : n ≤ s.bitsHeld) (hc : s.inCall = true) {st' : DecoderState}
    (k : Kept s.st st') (hb : st'.bitpos = s.st.bitpos + n) (hf : st'.FieldFits)
    (hd : st'.runningState ≠ .useDictionary := by simp)
    (hw : st'.runningState ≠ .writeOutput := by simp)
    (hm : st'.field ≠ .start → st'.runningState = s.st.runningState := by simp) :
    BaseInv ({ s.advance n with st := st' } : State).commit :=
  inv_of_regs hi hn hc (regs_of_kept hi.regs k (fun h => absurd h hd) (fun h => absurd h hw) hf) (bs := [])
    (by simpa using k.H) k.flushed hb (fun h => ⟨hm h, rfl⟩) k.outCount

theorem inv_advance_raise {s : State} (hi : BaseInv s) (n k) : BaseInv ((s.advance n).raise k).commit := by
  rw [advance_raise]; exact inv_commit (inv_raise hi k)

/-- The meta-block header's elements. -/
theorem inv_header {s u : State} {c n} (hi : BaseInv s) (hc : s.inCall = true) (hn : n ≤ s.bitsHeld) (hr : s.st.runningState = .metablockHeader)
    (at_ : At s.st c) (he : Effect (s.advance n) c u) : BaseInv u.commit := by
  have h := hi.regs
  have hfit := h.field
  unfold DecoderState.FieldFits at hfit
  cases he <;> simp only [At, hr, reduceCtorEq, false_and, and_false, or_false, false_or] at at_
  case isLast a =>
    refine inv_of_regs hi hn hc (st' := ((s.advance n).headerIsLast a).st) (bs := []) ?_ (by simp [State.headerIsLast]) rfl rfl (by intro; simp [State.headerIsLast])
    exact { h with blockBound := by simp [State.headerIsLast], field := by cases a <;> simp [DecoderState.FieldFits, State.headerIsLast, hr], dictionary := h.dictionary, resume := h.resume }
  case isLastEmpty a =>
    simp only [at_.2] at hfit
    cases a
    · refine inv_of_kept hi hn hc (st' := ((s.advance n).headerIsLastEmpty false).st) (by constructor <;> rfl) rfl (by simp [DecoderState.FieldFits, State.headerIsLastEmpty, hr, hfit]) ?_ ?_ ?_ <;> simp [State.headerIsLastEmpty, hr]
    · refine inv_of_kept hi hn hc (st' := ((s.advance n).headerIsLastEmpty true).st) (by constructor <;> rfl) rfl (by simp [DecoderState.FieldFits, State.headerIsLastEmpty]) ?_ ?_ ?_ <;> simp [State.headerIsLastEmpty]
  case mnibbles m hm =>
    simp only [at_.2] at hfit
    unfold State.headerNibbles
    split
    · refine inv_of_kept hi hn hc (by constructor <;> rfl) rfl (by simp [DecoderState.FieldFits, hr, hfit]) ?_ ?_ ?_ <;> simp [hr]
    · refine inv_of_kept hi hn hc (by constructor <;> rfl) rfl (by simp [DecoderState.FieldFits, hr, hfit]; omega) ?_ ?_ ?_ <;> simp [hr]
  case mlen nn m hnn hm =>
    simp only [at_.2] at hfit
    unfold State.headerLength
    split
    · exact inv_advance_raise hi n _
    · have hm24 : m + 1 ≤ 2 ^ 24 := by
        rcases hnn with rfl | rfl | rfl <;> omega
      simp only []
      split
      · refine inv_of_regs hi hn hc (bs := []) ?_ (by simp [DecoderState.compressedHeader]) rfl rfl (by simp [DecoderState.compressedHeader])
        exact { h with blockBound := hm24, field := fits_start rfl, dictionary := by simp [DecoderState.compressedHeader], resume := by simp [DecoderState.compressedHeader] }
      · refine inv_of_regs hi hn hc (bs := []) ?_ (by simp) rfl rfl (by simp)
        exact { h with blockBound := hm24, field := by simp [DecoderState.FieldFits, hr, hfit], dictionary := h.dictionary, resume := h.resume }
  case mskiplen nb k hnb hk =>
    simp only [at_.2] at hfit
    unfold State.headerSkipLength
    split
    · exact inv_advance_raise hi n _
    · have hm24 : k + 1 ≤ 2 ^ 24 := by
        rcases hnb with rfl | rfl | rfl <;> omega
      refine inv_of_regs hi hn hc (bs := []) ?_ (by simp) rfl rfl (by simp)
      exact { h with blockBound := hm24, field := by simp [DecoderState.FieldFits, hr, hfit], dictionary := h.dictionary, resume := h.resume }
  case isUncompressed a =>
    simp only [at_.2] at hfit
    cases a
    · refine inv_of_kept hi hn hc (st' := ((s.advance n).headerIsUncompressed false).st) (by constructor <;> rfl) rfl (by simp [DecoderState.FieldFits, State.headerIsUncompressed, DecoderState.compressedHeader]) ?_ ?_ ?_ <;> simp [State.headerIsUncompressed, hr, DecoderState.compressedHeader]
    · refine inv_of_kept hi hn hc (st' := ((s.advance n).headerIsUncompressed true).st) (by constructor <;> rfl) rfl (by simp [DecoderState.FieldFits, State.headerIsUncompressed, hr, hfit]) ?_ ?_ ?_ <;> simp [State.headerIsUncompressed, hr]
  case reserved =>
    simp only [at_.2] at hfit
    refine inv_of_kept hi hn hc (st' := ((s.advance n).headerReserved).st) (by constructor <;> rfl) rfl (by simp [DecoderState.FieldFits, State.headerReserved, hr, hfit]) ?_ ?_ ?_ <;> simp [State.headerReserved, hr]
  case mskipbytes m hm =>
    simp only [at_.2] at hfit
    unfold State.headerSkipBytes
    split
    · refine inv_of_regs hi hn hc (bs := []) ?_ (by simp) rfl rfl (by simp)
      exact { h with blockBound := by simp, field := by simp [DecoderState.FieldFits, hr, hfit], dictionary := h.dictionary, resume := h.resume }
    · refine inv_of_kept hi hn hc (by constructor <;> rfl) rfl (by simp [DecoderState.FieldFits, hr, hfit]) ?_ ?_ ?_ <;> simp [hr]
  case pad w =>
    unfold State.headerPadded
    refine inv_of_kept hi hn hc (by constructor <;> rfl) rfl (fits_start rfl) ?_ ?_ ?_ <;> by_cases hmd : s.st.isMetadata = true <;> simp [hmd]

theorem inv_symbolLengthDone {s : State} (hi : BaseInv s) (hc : s.inCall = true) {n} (hn : n ≤ s.bitsHeld) {st : DecoderState}
    (h0 : Calm (s.advance n).st st) (hf : st.field = .start) : BaseInv ((s.advance n).symbolLengthDone st).commit := by
  unfold State.symbolLengthDone
  split
  · exact inv_of_calm_start hi hn hc h0 hf
  · split
    · exact inv_advance_raise hi n _
    · exact inv_of_calm_start hi hn hc (Calm.trans h0 (calm_deliver _ _)) (by simp [deliver_run, hf])

theorem inv_repeatLength {s : State} (hi : BaseInv s) (hc : s.inCall = true) {n} (hn : n ≤ s.bitsHeld) (l xb x : Nat) :
    BaseInv ((s.advance n).repeatLength l xb x).commit := by
  unfold State.repeatLength
  simp only []
  generalize (if (s.advance n).st.repeatCodeLen = l then (s.advance n).st.repeatCount else 0) = old
  generalize (if old > 0 then (old - 2) <<< xb else 0) = tt
  split
  · exact inv_advance_raise hi n _
  · refine inv_symbolLengthDone hi hc hn ?_ rfl
    exact ⟨fun h => { h with codeLengths := Memory.wf_fill h.codeLengths _ _ _, field := fits_start rfl, resume := h.resume, dictionary := h.dictionary }, rfl, rfl, rfl, rfl, rfl⟩

theorem inv_huffman {s u : State} {c n} (hi : BaseInv s) (hc : s.inCall = true) (hn : n ≤ s.bitsHeld) (hr : s.st.runningState = .metablockHuffmanData)
    (at_ : At s.st c) (he : Effect (s.advance n) c u) : BaseInv u.commit := by
  have kr : ∀ {st' : DecoderState}, Kept (s.advance n).st st' → st'.runningState = (s.advance n).st.runningState →
      st'.resumeState = (s.advance n).st.resumeState → st'.bitpos = (s.advance n).st.bitpos → Calm (s.advance n).st st' := calm_of_kept
  cases he <;> simp only [At, hr, reduceCtorEq, false_and, and_false, or_false, false_or] at at_
  case varlen8 v hv =>
    refine inv_of_calm (st' := ((s.advance n).varlen8 v).st) hi hn hc (kr (by constructor <;> rfl) rfl rfl rfl) ?_
    simp [DecoderState.FieldFits, State.varlen8, hr, at_]; rcases at_ with ⟨_,_,_,_,h|h|h|h|h⟩ <;> simp [h]
  case nbltypes v =>
    refine inv_of_calm_start (st' := ((s.advance n).blockTypes v).st) hi hn hc ?_ ?_ <;>
    unfold State.blockTypes DecoderState.setBlockTypes <;> simp only [] <;> split
    · refine Calm.trans ?_ (calm_afterPartition _ _); exact calm_of_kept (by constructor <;> rfl) rfl rfl rfl
    · refine Calm.trans ?_ (calm_startCode _ _ _); exact calm_of_kept (by constructor <;> rfl) rfl rfl rfl
    · simp [afterPartition_run]
    · simp
  case ntrees v =>
    refine inv_of_calm_start (st' := ((s.advance n).mapTrees v).st) hi hn hc ?_ ?_ <;>
    unfold State.mapTrees DecoderState.setMapTrees <;> simp only [] <;> split
    · refine Calm.trans ?_ (calm_endMap _)
      refine Calm.trans ?_ (calm_setMap _ (fun h => Memory.wf_fill h.cmMap _ _ _))
      exact kr (by constructor <;> rfl) rfl rfl rfl
    · exact kr (by constructor <;> rfl) rfl rfl rfl
    · rw [field_endMap, setMap_field]
    · rfl
  case npostfix p hp =>
    refine inv_of_calm (st' := ((s.advance n).postfixBits p).st) hi hn hc (kr (by constructor <;> rfl) rfl rfl rfl) ?_
    simp [DecoderState.FieldFits, State.postfixBits, hr, at_]
  case ndirecthi d hd =>
    unfold State.directCodes
    split
    · exact inv_advance_raise hi n _
    · refine inv_of_calm_start hi hn hc (Calm.trans ?_ (calm_enterPhase _ _)) (by simp)
      exact kr (by constructor <;> rfl) rfl rfl rfl
  case cmode m hm =>
    refine inv_of_calm_start (st' := ((s.advance n).contextMode m).st) hi hn hc ?_ ?_
    · unfold State.contextMode
      simp only []
      have : Calm (s.advance n).st { (s.advance n).st with contextModes := (s.advance n).st.contextModes.write (s.advance n).st.hidx (BitVec.ofNat 8 m), hidx := (s.advance n).st.hidx + 1, field := .start } :=
        ⟨fun h => { h with contextModes := Memory.wf_write h.contextModes _ _, field := fits_start rfl, resume := h.resume, dictionary := h.dictionary }, rfl, rfl, rfl, rfl, rfl⟩
      split
      · exact this
      · exact this.trans (calm_enterPhase _ _)
    · unfold State.contextMode
      simp only []; split <;> simp
  case rlemaxflag a =>
    cases a
    · exact inv_of_calm_start (st' := ((s.advance n).rleFlag false).st) hi hn hc (kr (by constructor <;> rfl) rfl rfl rfl) rfl
    · refine inv_of_calm (st' := ((s.advance n).rleFlag true).st) hi hn hc (kr (by constructor <;> rfl) rfl rfl rfl) ?_
      rcases at_ with ⟨_, h1, h2, h3, h|h⟩ <;> simp [DecoderState.FieldFits, State.rleFlag, hr, h1, h]
  case rlemaxm1 r hr' =>
    exact inv_of_calm_start (st' := ((s.advance n).rleMax r).st) hi hn hc (kr (by constructor <;> rfl) rfl rfl rfl) rfl
  case cmapZero =>
    refine inv_of_calm_start (st' := ((s.advance n).mapEntry 0).st) hi hn hc ?_ ?_
    · unfold State.mapEntry DecoderState.mapDone
      simp only []
      split
      · refine Calm.trans (calm_setMap _ (fun h => Memory.wf_write h.cmMap _ _)) (calm_of_kept (by constructor <;> rfl) rfl rfl rfl)
      · refine Calm.trans (calm_setMap _ (fun h => Memory.wf_write h.cmMap _ _)) (calm_of_kept (by constructor <;> rfl) rfl rfl rfl)
    · unfold State.mapEntry DecoderState.mapDone; simp only []; split <;> rfl
  case cmapValue x hx _ =>
    refine inv_of_calm_start (st' := ((s.advance n).mapEntry _).st) hi hn hc ?_ ?_
    · unfold State.mapEntry DecoderState.mapDone
      simp only []
      split
      · refine Calm.trans (calm_setMap _ (fun h => Memory.wf_write h.cmMap _ _)) (calm_of_kept (by constructor <;> rfl) rfl rfl rfl)
      · refine Calm.trans (calm_setMap _ (fun h => Memory.wf_write h.cmMap _ _)) (calm_of_kept (by constructor <;> rfl) rfl rfl rfl)
    · unfold State.mapEntry DecoderState.mapDone; simp only []; split <;> rfl
  case cmapRun x y _ _ =>
    unfold State.mapRun
    split
    · exact inv_advance_raise hi n _
    · refine inv_of_calm_start hi hn hc ?_ ?_ <;> unfold DecoderState.mapDone <;> simp only [] <;> split
      · refine Calm.trans (calm_setMap _ (fun h => Memory.wf_fill h.cmMap _ _ _)) (calm_of_kept (by constructor <;> rfl) rfl rfl rfl)
      · refine Calm.trans (calm_setMap _ (fun h => Memory.wf_fill h.cmMap _ _ _)) (calm_of_kept (by constructor <;> rfl) rfl rfl rfl)
      all_goals rfl
  case imtf a =>
    unfold State.mapTransform
    simp only []
    refine inv_of_calm_start hi hn hc ?_ ?_
    · have h0 : Calm (s.advance n).st { (s.advance n).st with field := .start } := kr (by constructor <;> rfl) rfl rfl rfl
      split
      · refine Calm.trans ?_ (calm_endMap _)
        exact Calm.trans h0 (calm_setMap _ (fun h => Memory.wf_writeAll h.cmMap _ _))
      · exact Calm.trans h0 (calm_endMap _)
    · split <;> simp [field_endMap]
  case hskip m hm =>
    unfold State.codeStart
    split
    · refine inv_of_calm hi hn hc (kr (by constructor <;> rfl) rfl rfl rfl) ?_
      simp [DecoderState.FieldFits, hr, at_]
    · refine inv_of_calm_start hi hn hc ?_ rfl
      exact ⟨fun h => { h with clLengths := Memory.wf_nil, field := fits_start rfl, resume := h.resume, dictionary := h.dictionary }, rfl, rfl, rfl, rfl, rfl⟩
  case nsymm1 m hm =>
    refine inv_of_calm (st' := ((s.advance n).simpleCount m).st) hi hn hc (kr (by constructor <;> rfl) rfl rfl rfl) ?_
    simp [DecoderState.FieldFits, State.simpleCount, hr, at_]
  case symbol w x hx =>
    unfold State.simpleSymbol State.endSimple
    simp only []
    split
    · refine inv_of_calm hi hn hc (kr (by constructor <;> rfl) rfl rfl rfl) ?_
      simp [DecoderState.FieldFits, hr, at_]
    · split
      · refine inv_of_calm hi hn hc (kr (by constructor <;> rfl) rfl rfl rfl) ?_
        simp [DecoderState.FieldFits, hr, at_]
      · split
        · exact inv_advance_raise hi n _
        · split
          · exact inv_advance_raise hi n _
          · refine inv_of_calm_start hi hn hc (Calm.trans ?_ (calm_deliver _ _)) (by simp [deliver_run])
            exact kr (by constructor <;> rfl) rfl rfl rfl
  case treeselect a =>
    unfold State.simpleTree State.endSimple
    split
    · exact inv_advance_raise hi n _
    · split
      · exact inv_advance_raise hi n _
      · refine inv_of_calm_start hi hn hc (Calm.trans ?_ (calm_deliver _ _)) (by simp [deliver_run])
        exact kr (by constructor <;> rfl) rfl rfl rfl
  case cllen v hv =>
    unfold State.codeLengthLength
    simp only []
    generalize (if v = 0 then (s.advance n).st.clSpace else _) = A
    generalize (if v = 0 then (s.advance n).st.clNum else _) = B
    have hcl : Core (s.advance n).st → Memory.wf ((s.advance n).st.clLengths.write (tableAt clOrder (s.advance n).st.clIdx) (BitVec.ofNat 8 v)) :=
      fun h => Memory.wf_write h.clLengths _ _
    split
    · split
      · exact inv_advance_raise hi n _
      · refine inv_of_calm_start hi hn hc ?_ rfl
        exact ⟨fun h => { h with clLengths := hcl h, codeLengths := Memory.wf_nil, field := fits_start rfl, resume := h.resume, dictionary := h.dictionary }, rfl, rfl, rfl, rfl, rfl⟩
    · refine inv_of_calm_start hi hn hc ?_ rfl
      exact ⟨fun h => { h with clLengths := hcl h, field := fits_start rfl, resume := h.resume, dictionary := h.dictionary }, rfl, rfl, rfl, rfl, rfl⟩
  case clsym x hx =>
    unfold State.symbolLength
    refine inv_symbolLengthDone hi hc hn ?_ rfl
    exact ⟨fun h => { h with codeLengths := Memory.wf_write h.codeLengths _ _, field := fits_start rfl, resume := h.resume, dictionary := h.dictionary }, rfl, rfl, rfl, rfl, rfl⟩
  case blen x y _ _ =>
    unfold State.blockCountCode State.blockCount
    obtain ⟨-, h1, h2, h3, h4⟩ := at_
    simp only [advance_st, h3]
    refine inv_of_calm_start hi hn hc (Calm.trans ?_ (calm_afterPartition _ _)) (by simp [afterPartition_run])
    exact kr (by constructor <;> rfl) rfl rfl rfl
  case clsym16 x hx => exact inv_repeatLength hi hc hn _ _ _
  case clsym17 x hx => exact inv_repeatLength hi hc hn _ _ _

/-- The fence test keeps the registers' invariant (R385). -/
theorem regs_fence {st : DecoderState} {r : RunningState} (h : Core { st with runningState := r }) (hr : r.resumable = true) (hf : st.field = .start) :
    RegsInv (st.fenceTest r) := by
  have hru : r ≠ .useDictionary := by rintro rfl; simp [RunningState.resumable] at hr
  unfold DecoderState.fenceTest
  split
  · exact { h with field := fits_start hf, resume := fun _ => hr, dictionary := by simp }
  · exact { h with field := fits_start hf, resume := h.resume, dictionary := h.dictionary }

theorem inv_emit {s : State} (hi : BaseInv s) (hc : s.inCall = true) {n} (hn : n ≤ s.bitsHeld) {st : DecoderState} {r : RunningState}
    {bs : List Byte} (h : Core { st with runningState := r }) (hr : r.resumable = true) (hf : st.field = .start)
    (hH : st.H = s.st.H ++ bs) (hfl : st.flushed = s.st.flushed) (hb : st.bitpos = s.st.bitpos + n)
    (ho : st.outCount = s.st.outCount := by rfl) :
    BaseInv ({ s.advance n with st := st.fenceTest r } : State).commit :=
  inv_of_regs hi hn hc (regs_fence h hr hf) (by simpa using hH) (by simpa using hfl) (by simpa using hb) (by simp [hf])
    (by simpa using ho)

theorem core_emit {st : DecoderState} (h : Core st) (b : Byte) {m : Nat} (hm : m ≤ 2 ^ 24) {r : RunningState} (hr : r.resumable = true) :
    Core { st.emit b with metaBlockLength := m, runningState := r, field := .start } := by
  have hru : r ≠ .useDictionary ∧ r ≠ .writeOutput := by constructor <;> rintro rfl <;> simp [RunningState.resumable] at hr
  exact { h with
    ringBuffer := Memory.wf_write h.ringBuffer _ _
    produced := by simpa using h.produced
    delivered := by have := h.delivered; simp at *; omega
    blockBound := hm
    dictionary := fun hh => absurd hh hru.1
    resume := fun hh => absurd hh hru.2
    field := fits_start rfl }

theorem regs_raise_free {s : State} (hi : BaseInv s) (n) : Core (s.advance n).st :=
  regs_of_kept hi.regs (by constructor <;> rfl) (fun h => h) (fun h => hi.regs.resume h) (fits_start rfl)

theorem inv_resolve {s : State} (hi : BaseInv s) (hc : s.inCall = true) {n} (hn : n ≤ s.bitsHeld) {st : DecoderState}
    (k : Core st) (hd : 1 ≤ st.distance) (hH : st.H = s.st.H) (hf : st.flushed = s.st.flushed) (hb : st.bitpos = s.st.bitpos + n)
    (ho : st.outCount = s.st.outCount := by rfl) : BaseInv ((s.advance n).resolve st).commit := by
  rcases resolve_cases (s.advance n) st with ⟨h1, h2⟩ | ⟨-, -, h2⟩ | ⟨-, -, -, h2⟩ | ⟨-, -, -, -, h2⟩ <;> rw [h2]
  · refine inv_of_regs hi hn hc (bs := []) ?_ (by simpa using hH) hf hb (by simp) ho
    exact { k with field := fits_start rfl, resume := by simp, dictionary := fun _ => h1 }
  · exact inv_advance_raise hi n _
  · refine inv_of_regs hi hn hc (bs := []) ?_ (by simpa using hH) hf hb (by simp) ho
    exact { k with field := fits_start rfl, resume := by simp, dictionary := by simp }
  · refine inv_of_regs hi hn hc (bs := []) ?_ (by simpa using hH) hf hb (by simp) ho
    exact { k with distances := ring_ge k.distances _ hd, field := fits_start rfl, resume := by simp, dictionary := by simp }

theorem inv_explicit {s : State} (hi : BaseInv s) (hc : s.inCall = true) {n} (hn : n ≤ s.bitsHeld) (hr : s.st.runningState = .insertLoop) (sym : Nat) (d : Int) :
    BaseInv ((s.advance n).explicitDistance sym d).commit := by
  unfold State.explicitDistance
  split
  · exact inv_advance_raise hi n _
  · refine inv_resolve hi hc hn ?_ ?_ rfl rfl rfl
    · have h := regs_raise_free hi n
      exact { h with field := fits_start rfl, dictionary := by simp [hr], resume := by simp [hr] }
    · show 1 ≤ d.toNat; omega

theorem inv_blockCount {s : State} (hi : BaseInv s) (hc : s.inCall = true) {n} (hn : n ≤ s.bitsHeld) (m t : Nat) (hf : s.st.field = .blockCount t) :
    BaseInv ((s.advance n).blockCount m).commit := by
  unfold State.blockCount
  simp only [advance_st, hf]
  refine inv_of_calm_start hi hn hc ?_ rfl
  exact calm_of_kept (by constructor <;> rfl) rfl rfl rfl

theorem inv_main {s u : State} {c n} (hi : BaseInv s) (hc : s.inCall = true) (hn : n ≤ s.bitsHeld) (hr : s.st.runningState = .mainLoop)
    (at_ : At s.st c) (he : Effect (s.advance n) c u) : BaseInv u.commit := by
  cases he <;> simp only [At, hr, reduceCtorEq, false_and, and_false, or_false, false_or, true_and, true_or] at at_
  case btype t _ =>
    refine inv_of_kept hi hn hc (st' := ((s.advance n).switchType t).st) (by constructor <;> rfl) rfl ?_ ?_ ?_ ?_ <;> simp [State.switchType, hr, DecoderState.FieldFits]
  case blen x y _ _ =>
    obtain ⟨t, ht⟩ := at_
    exact inv_blockCount hi hc hn _ t ht
  case cmd x _ =>
    refine inv_of_kept hi hn hc (st' := ((s.advance n).command x).st) (by constructor <;> rfl) rfl ?_ ?_ ?_ ?_ <;> simp [State.command, hr, DecoderState.FieldFits]
  case insLen code x _ =>
    refine inv_of_kept hi hn hc (st' := ((s.advance n).insertLengthCode _ x).st) (by constructor <;> rfl) rfl ?_ ?_ ?_ ?_ <;> simp [State.insertLengthCode, hr, DecoderState.FieldFits]
  case copyLen code x _ =>
    unfold State.copyLengthCode
    split
    · exact inv_advance_raise hi n _
    · refine inv_of_kept hi hn hc (by constructor <;> rfl) rfl (fits_start rfl) ?_ ?_ ?_ <;> simp

theorem inv_insert {s u : State} {c n} (hi : BaseInv s) (hc : s.inCall = true) (hn : n ≤ s.bitsHeld) (hr : s.st.runningState = .insertLoop)
    (at_ : At s.st c) (he : Effect (s.advance n) c u) : BaseInv u.commit := by
  cases he <;> simp only [At, hr, reduceCtorEq, false_and, and_false, or_false, false_or, true_and, true_or] at at_
  case btype t _ =>
    refine inv_of_kept hi hn hc (st' := ((s.advance n).switchType t).st) (by constructor <;> rfl) rfl ?_ ?_ ?_ ?_ <;> simp [State.switchType, hr, DecoderState.FieldFits]
  case blen x y _ _ =>
    obtain ⟨t, ht⟩ := at_
    exact inv_blockCount hi hc hn _ t ht
  case lit b =>
    have h := core_emit (regs_raise_free hi n) b (m := s.st.metaBlockLength - 1) (by have := hi.regs.blockBound; omega) (r := .insertLoop) rfl
    exact inv_emit hi hc hn (r := .insertLoop) (bs := [b]) { h with field := fits_start rfl, dictionary := h.dictionary, resume := h.resume } rfl rfl rfl rfl rfl
  case distImplicit =>
    refine inv_resolve hi hc hn ?_ ?_ rfl rfl rfl
    · have h := regs_raise_free hi n
      exact { h with field := fits_start rfl, dictionary := by simp [hr], resume := by simp [hr] }
    · exact hi.regs.distances _
  case distShort => exact inv_explicit hi hc hn hr _ _
  case distDirect => exact inv_explicit hi hc hn hr _ _
  case distLong => exact inv_explicit hi hc hn hr _ _

theorem inv_others {s u : State} {c n} (hi : BaseInv s) (hc : s.inCall = true) (hn : n ≤ s.bitsHeld)
    (hr : s.st.runningState = .initialized ∨ s.st.runningState = .uncompressed ∨ s.st.runningState = .metadata ∨ s.st.runningState = .finished ∨ s.st.runningState = .useDictionary)
    (at_ : At s.st c) (he : Effect (s.advance n) c u) : BaseInv u.commit := by
  cases he <;> (try (exfalso; simp only [At] at at_; rcases hr with h | h | h | h | h <;> simp [h] at at_; done)) <;> (try exact at_.elim)
  case window wb h =>
    refine inv_of_kept hi hn hc (st' := ((s.advance n).setWindow false wb).st) (by constructor <;> rfl) rfl (fits_start rfl) ?_ ?_ ?_ <;> simp [State.setWindow]
  case largeWindow wb =>
    unfold State.setLargeWindow; split
    · exact inv_advance_raise hi n _
    · refine inv_of_kept hi hn hc (st' := ((s.advance n).setWindow true wb).st) (by constructor <;> rfl) rfl (fits_start rfl) ?_ ?_ ?_ <;> simp [State.setWindow]
  case reservedWindow => exact inv_advance_raise hi n _
  case finalPad w =>
    obtain ⟨h1, h2, h3⟩ := at_
    refine inv_of_kept hi hn hc (st' := ((s.advance n).finalPadded).st) (by constructor <;> rfl) rfl ?_ ?_ ?_ ?_ <;> simp [State.finalPadded, h1, DecoderState.FieldFits]
  case raw b =>
    have h := core_emit (regs_raise_free hi n) b (m := s.st.metaBlockLength - 1) (by have := hi.regs.blockBound; omega) (r := .uncompressed) rfl
    exact inv_emit hi hc hn (r := .uncompressed) (bs := [b]) { h with field := fits_start rfl, dictionary := h.dictionary, resume := h.resume } rfl rfl rfl rfl rfl
  case skip =>
    obtain ⟨h1, h2, h3⟩ := at_
    have h := hi.regs
    refine inv_of_regs hi hn hc (st' := ((s.advance n).skipByte).st) (bs := []) ?_ (by simp [State.skipByte]) rfl rfl (by simp [State.skipByte])
    exact { h with field := fits_start rfl, blockBound := by have := h.blockBound; simp [State.skipByte]; omega, dictionary := by simp [State.skipByte, h1], resume := by simp [State.skipByte, h1] }
  case transform m hm =>
    unfold State.emitWord
    split
    · exact inv_advance_raise hi n _
    · have h := regs_raise_free hi n
      generalize (s.advance n).staticWord m = bs
      obtain ⟨h1, h2, h3, rb, p, hh, h4⟩ := emitAll_core (s.advance n).st bs h.ringBuffer h.produced
      rw [h4] at h1 h2 h3 ⊢
      simp only [] at h1 h2 h3
      refine inv_emit hi hc hn (r := .mainLoop) (bs := bs) ?_ rfl rfl h3 rfl rfl
      have hd : s.st.flushed ≤ p := by
        have h5 := hi.regs.delivered
        have h6 := hi.regs.produced
        rw [h2, h3]; simp; omega
      have hm : s.st.metaBlockLength - bs.length ≤ 2 ^ 24 := by have := hi.regs.blockBound; omega
      exact { h with ringBuffer := h1, produced := h2, field := fits_start rfl, dictionary := by simp, resume := by simp, delivered := hd, blockBound := hm }

theorem inv_effect {s u : State} {c n} (hi : BaseInv s) (hc : s.inCall = true) (hn : n ≤ s.bitsHeld)
    (at_ : At s.st c) (he : Effect (s.advance n) c u) : BaseInv u.commit := by
  rcases hr : s.st.runningState
  case initialized => exact inv_others hi hc hn (by simp [hr]) at_ he
  case uncompressed => exact inv_others hi hc hn (by simp [hr]) at_ he
  case metadata => exact inv_others hi hc hn (by simp [hr]) at_ he
  case finished => exact inv_others hi hc hn (by simp [hr]) at_ he
  case useDictionary => exact inv_others hi hc hn (by simp [hr]) at_ he
  case mainLoop => exact inv_main hi hc hn hr at_ he
  case insertLoop => exact inv_insert hi hc hn hr at_ he
  case metablockHeader => exact inv_header hi hc hn hr at_ he
  case metablockHuffmanData => exact inv_huffman hi hc hn hr at_ he
  all_goals (exfalso; cases c <;> simp [At, hr] at at_)

theorem inv_of_regs0 {s : State} (hi : BaseInv s) (hc : s.inCall = true) {st' : DecoderState} (hr : RegsInv st')
    {bs} (hH : st'.H = s.st.H ++ bs) (hf : st'.flushed = s.st.flushed) (hb : st'.bitpos = s.st.bitpos)
    (hm : st'.field = .start) (ho : st'.outCount = s.st.outCount := by first | rfl | simp) :
    BaseInv ({ s with st := st' } : State).commit := by
  have h := inv_of_regs hi (n := 0) (Nat.zero_le _) hc hr hH hf (by simpa using hb) (fun h => absurd hm h) ho
  have e : ({ s.advance 0 with st := st' } : State).commit = ({ s with st := st' } : State).commit := by
    unfold State.commit; simp only [hm]; rfl
  rwa [e] at h

theorem core0 {s : State} (hi : BaseInv s) : Core s.st := regs_start hi.regs

theorem field_of_run {st : DecoderState} (h : st.FieldFits) (hr : st.runningState = .blockStart ∨ st.runningState = .uncompressed ∨ st.runningState = .metadata ∨
    st.runningState = .copyLoop ∨ st.runningState = .useDictionary ∨ st.runningState = .compoundDictionaryCopy ∨ st.runningState = .writeOutput ∨
    (st.runningState = .metablockHuffmanData ∧ st.pcActive = false ∧ st.hphase = .finalize)) : st.field = .start := by
  unfold DecoderState.FieldFits at h
  split at h
  · assumption
  all_goals (exfalso; rcases hr with hr | hr | hr | hr | hr | hr | hr | ⟨hr, hp, hq⟩ <;> simp_all)

theorem inv_emit0 {s : State} (hi : BaseInv s) (hc : s.inCall = true) {st : DecoderState} {r : RunningState}
    {bs : List Byte} (h : Core { st with runningState := r }) (hr : r.resumable = true) (hf : st.field = .start)
    (hH : st.H = s.st.H ++ bs) (hfl : st.flushed = s.st.flushed) (hb : st.bitpos = s.st.bitpos)
    (ho : st.outCount = s.st.outCount := by rfl) : BaseInv ({ s with st := st.fenceTest r } : State).commit :=
  inv_of_regs0 hi hc (regs_fence h hr hf) (by simpa using hH) (by simpa using hfl) (by simpa using hb) (by simp [hf])
    (by simpa using ho)

theorem inv_internal {s : State} {op : Internal} (hi : BaseInv s) (hc : s.inCall = true) (ha : AtInternal s.st op) : BaseInv (op.run s).commit := by
  have h := hi.regs
  cases op
  case blockStart =>
    have hf := field_of_run h.field (.inl ha)
    unfold Internal.run State.stepBlockStart
    simp only []
    refine inv_of_regs0 hi hc (bs := []) ?_ ?_ ?_ ?_ ?_ ?_
    · split
      · exact { h with field := fits_start hf, dictionary := by simp, resume := fun _ => rfl }
      · exact { h with field := fits_start hf, dictionary := by simp, resume := by simp }
    all_goals split <;> simp [hf]
  case endOfBlock =>
    obtain ⟨h1, -⟩ := ha
    have hf : s.st.field = .start := by
      rcases h1 with ⟨-, h1⟩ | h1 | h1
      · exact h1
      · exact field_of_run h.field (by simp [h1])
      · exact field_of_run h.field (by simp [h1])
    exact inv_of_regs0 hi hc (bs := []) { h with field := fits_start hf, dictionary := by simp, resume := by simp } (by simp) rfl rfl hf
  case finalize =>
    have hf := field_of_run h.field (by simp [AtInternal] at ha; simp [ha])
    exact inv_of_regs0 hi hc (bs := []) { h with field := fits_start hf, dictionary := by simp, resume := by simp } (by simp) rfl rfl hf
  case literalsDone =>
    obtain ⟨-, hf, -⟩ := ha
    exact inv_of_regs0 hi hc (bs := []) { h with field := fits_start hf, dictionary := by simp, resume := by simp } (by simp) rfl rfl hf
  case copy =>
    have hf := field_of_run h.field (by simp [ha.1])
    unfold Internal.run State.stepCopy
    simp only []
    split
    · exact inv_of_regs0 hi hc (bs := []) { h with field := fits_start hf, dictionary := by simp, resume := by simp } (by simp) rfl rfl hf
    · have hh := core_emit (core0 hi) (s.st.ringBack s.st.distance) (m := s.st.metaBlockLength - 1) (by have := h.blockBound; omega) (r := .copyLoop) rfl
      exact inv_emit0 hi hc (r := .copyLoop) (bs := [s.st.ringBack s.st.distance]) { hh with field := fits_start rfl, dictionary := hh.dictionary, resume := hh.resume } rfl hf rfl rfl rfl
  case compoundCopy =>
    have hf := field_of_run h.field (by simp [ha.1])
    unfold Internal.run State.stepCompoundCopy
    simp only []
    split
    · exact inv_of_regs0 hi hc (bs := []) { h with field := fits_start hf, dictionary := by simp, resume := by simp } (by simp) rfl rfl hf
    · obtain ⟨i, o, e⟩ := skipChunks_core ({ s.st.emit (s.st.CD.getD s.st.cdAddress 0) with
          cdBrCopied := s.st.cdBrCopied + 1
          metaBlockLength := s.st.metaBlockLength - 1
          cdBrOffset := s.st.cdBrOffset + 1 } : DecoderState) 16
      rw [e]
      have hh := core_emit (core0 hi) (s.st.CD.getD s.st.cdAddress 0) (m := s.st.metaBlockLength - 1) (by have := h.blockBound; omega) (r := .compoundDictionaryCopy) rfl
      exact inv_emit0 hi hc (r := .compoundDictionaryCopy) (bs := [s.st.CD.getD s.st.cdAddress 0]) { hh with field := fits_start rfl, dictionary := hh.dictionary, resume := hh.resume } rfl hf rfl rfl rfl
  case useDictionary =>
    have hf := field_of_run h.field (by simp [ha.1])
    have hd := h.dictionary ha.1
    unfold Internal.run State.useDictionary State.compoundStart
    simp only []
    split
    · exact inv_commit (inv_raise hi _)
    · split
      · split
        · exact inv_commit (inv_raise hi _)
        · split
          · exact inv_commit (inv_raise hi _)
          · exact inv_of_regs0 hi hc (bs := []) { h with distances := ring_ge h.distances _ (by omega), field := fits_start hf, dictionary := by simp, resume := by simp } (by simp) rfl rfl hf
      · exact inv_commit (inv_raise hi _)
  case writeOutput =>
    have hf := field_of_run h.field (by simp [AtInternal] at ha; simp [ha])
    have hres := h.resume ha
    have hp := h.produced
    have hfl := h.delivered
    have key : ∀ st' : DecoderState, RegsInv st' → st'.H = s.st.H → st'.flushed = s.st.flushed + min (s.st.pos - s.st.flushed) s.st.outCap →
        st'.bitpos = s.st.bitpos → st'.field = .start → st'.outCount = s.deliverOutput.st.outCount → ∀ (ic : Bool) (r : CommandResult) (rp : Option CallReport), BaseInv { s.deliverOutput with st := st', ckpt := none, inCall := ic, result := r, report := rp } := by
      intro st' hr hH hfl' hb hfs ho ic r rp
      refine ⟨hr, by simp, fun _ => hfs, fun _ => rfl, hi.supplied, ?_, ?_, fun _ => ?_⟩
      · show st'.bitpos ≤ _; rw [hb]; exact hi.cursor
      · show s.OUT ++ s.deliverable = _
        rw [hH, hfl', hi.output]
        unfold State.deliverable
        show _ = List.take (s.st.flushed + min (s.st.pos - s.st.flushed) s.st.outCap) s.st.H
        rw [List.take_add]
      · rw [ho]
        show (s.HOSTBUF ++ s.deliverable).length = s.st.outCount + min (s.st.pos - s.st.flushed) s.st.outCap
        rw [List.length_append, hi.buffer hc]
        unfold State.deliverable
        rw [List.length_take, List.length_drop]
        omega
    unfold Internal.run State.stepWriteOutput
    simp only []
    split
    · have := key (s.deliverOutput).st { h with delivered := by show s.st.flushed + min (s.st.pos - s.st.flushed) s.st.outCap ≤ s.st.pos; omega
                                                field := fits_start hf, dictionary := h.dictionary, resume := h.resume } rfl rfl rfl hf rfl false (.decompressed s.deliverOutput.st.outCount .needMoreOutput) (some ⟨s.deliverOutput.st.outCount, .needMoreOutput⟩)
      exact inv_commit this
    · have hnd : s.st.resumeState = .useDictionary → s.st.maxDistance < s.st.distance := by
        intro hh; rw [hh] at hres; cases hres
      have hnw : s.st.resumeState = .writeOutput → s.st.resumeState.resumable = true := fun _ => hres
      have hdl : s.st.flushed + min (s.st.pos - s.st.flushed) s.st.outCap ≤ s.st.pos := by omega
      have := key { s.deliverOutput.st with runningState := s.st.resumeState }
        { h with delivered := hdl, field := fits_start hf, dictionary := hnd, resume := hnw } rfl rfl rfl hf rfl s.inCall s.result s.report
      rw [commit_of_start]
      · exact this
      · exact hf
  case atEnd =>
    obtain ⟨h1, h2⟩ := ha
    unfold Internal.run State.stepAtEnd
    simp only []
    split
    · exact inv_commit (inv_raise hi _)
    · split
      · refine inv_commit ⟨?_, by simp, fun _ => rfl, fun _ => rfl, hi.supplied, hi.cursor, hi.output, fun h => nomatch h⟩
        exact regs_start h
      · exact inv_commit (inv_pull hi)

theorem inv_raise_answer {s : State} (hi : BaseInv s) (k r) : BaseInv (((s.raise k).answer r)) := by
  obtain ⟨⟩ := inv_raise hi k
  constructor <;> assumption

theorem inv_commandIn {s : State} (hi : BaseInv s) (l k) (f : State → State) (hf : s.st.runningState = l → BaseInv (f s)) : BaseInv (s.commandIn l k f) := by
  unfold State.commandIn
  split
  · obtain ⟨⟩ := hi; constructor <;> assumption
  · obtain ⟨⟩ := hi; constructor <;> assumption
  · split
    · exact hf ‹_›
    · exact inv_raise_answer hi _ _

theorem reset_inv_regs : RegsInv DecoderState.reset := by
  constructor <;> first | decide | exact fits_start rfl

theorem inv_host_rec {s : State} (hi : BaseInv s) (hc : s.inCall = false) {st' : DecoderState} (k : RegsInv st') (hf : st'.field = s.st.field) (hH : st'.H = s.st.H)
    (hfl : st'.flushed = s.st.flushed) (hb : st'.bitpos = s.st.bitpos) (hb2 ic r src)
    (ho : ic = true → hb2.length = st'.outCount) : BaseInv { s with st := st', HOSTBUF := hb2, inCall := ic, result := r, source := src } := by
  have hck := hi.idle hc
  refine ⟨k, ?_, fun _ => ?_, fun _ => hck, hi.supplied, ?_, ?_, ho⟩
  · intro c h; rw [show State.ckpt _ = s.ckpt from rfl, hck] at h; cases h
  · show st'.field = _; rw [hf]; exact hi.whole hck
  · show st'.bitpos ≤ _; rw [hb]; exact hi.cursor
  · show s.OUT = _; rw [hi.output]; show _ = List.take st'.flushed st'.H; rw [hH, hfl]

theorem inv_host {s u : State} {src chunk cap} (hi : BaseInv s) (hc : s.inCall = false) (he : Effect s (.hostCommand src chunk cap) u) : BaseInv u := by
  have h := hi.regs
  cases he
  case reset =>
    exact ⟨reset_inv_regs, by simp [State.hardReset, State.reset], fun _ => rfl, fun _ => rfl, rfl, Nat.zero_le _, rfl, fun h => nomatch h⟩
  case init =>
    refine inv_commandIn hi _ _ _ (fun hr => ?_)
    exact inv_host_rec hi hc (st' := { s.st with runningState := .initialized }) { h with field := fits_start (hi.whole (hi.idle hc)), dictionary := by simp, resume := by simp } rfl rfl rfl rfl s.HOSTBUF s.inCall _ src (fun h => absurd (hc.symm.trans h) (by simp))
  case enableLargeWindow =>
    refine inv_commandIn hi _ _ _ (fun hr => ?_)
    exact inv_host_rec hi hc (st' := { s.st with cfgLargeWindow := s.params.largeWindowSupported || s.st.cfgLargeWindow }) { h with field := h.field, dictionary := h.dictionary, resume := h.resume } rfl rfl rfl rfl s.HOSTBUF s.inCall _ s.source (fun h => absurd (hc.symm.trans h) (by simp))
  case enableEagerOutput =>
    refine inv_commandIn hi _ _ _ (fun hr => ?_)
    exact inv_host_rec hi hc (st' := { s.st with cfgEager := true }) { h with field := h.field, dictionary := h.dictionary, resume := h.resume } rfl rfl rfl rfl s.HOSTBUF s.inCall _ s.source (fun h => absurd (hc.symm.trans h) (by simp))
  case attach =>
    refine inv_commandIn hi _ _ _ (fun hr => ?_)
    unfold State.attachChunk
    split
    · exact inv_raise_answer hi _ _
    · rename_i hn
      have h15 := h.chunks
      have hlt : s.st.cdNumChunks + 1 ≤ 15 := by simp only [Config.cdMaxChunks, not_or] at hn; omega
      exact inv_host_rec hi hc (st' := { s.st with
        CD := s.st.CD ++ chunk
        cdNumChunks := s.st.cdNumChunks + 1
        cdChunkOffsets := s.st.cdChunkOffsets.setIfInBounds (s.st.cdNumChunks + 1)
          (s.st.cdTotalSize + chunk.length) }) { h with chunks := hlt, field := h.field, dictionary := h.dictionary, resume := h.resume } rfl rfl rfl rfl s.HOSTBUF s.inCall _ s.source (fun h => absurd (hc.symm.trans h) (by simp))
  case decompress =>
    unfold State.beginCall
    split
    · obtain ⟨⟩ := hi; constructor <;> assumption
    · obtain ⟨⟩ := hi; constructor <;> assumption
    · exact inv_raise_answer hi _ _
    · exact inv_host_rec hi hc (st' := { s.st with outCap := cap, outCount := 0 }) { h with field := h.field, dictionary := h.dictionary, resume := h.resume } rfl rfl rfl rfl [] true s.result s.source (fun _ => rfl)
  case close =>
    exact inv_host_rec hi hc (st' := { s.st with runningState := .closed }) { h with field := fits_start (hi.whole (hi.idle hc)), dictionary := by simp, resume := by simp } rfl rfl rfl rfl s.HOSTBUF s.inCall _ s.source (fun h => absurd (hc.symm.trans h) (by simp))

end Sys2Proof.Laws
end

