-- ==== Sys2Proof/Laws/Output.lean ====
section
/-! SUPPORT. What one element step can do to the output, the meta-block's length, the bit position and the session's setup:
it fails, or it leaves registers that `Row` describes. Later proofs cite these and do not unfold the meanings. -/

namespace Sys2Proof.Laws

open Sys2Proof.Machine

theorem sameSetup_refl (a : DecoderState) : SameSetup a a := ⟨rfl, rfl, rfl, rfl, rfl, rfl, rfl, rfl⟩

theorem sameSetup_trans {a b c : DecoderState} (h : SameSetup a b) (h' : SameSetup b c) : SameSetup a c :=
  ⟨h.1.trans h'.1, h.2.trans h'.2, h.3.trans h'.3, h.4.trans h'.4, h.5.trans h'.5, h.6.trans h'.6, h.7.trans h'.7,
    h.8.trans h'.8⟩

/-- The output registers are the same, and WriteOutput does not come next. -/
structure Quiet (a b : DecoderState) : Prop where
  RB : b.RB = a.RB
  H : b.H = a.H
  pos : b.pos = a.pos
  flushed : b.flushed = a.flushed
  notDelivering : b.runningState ≠ .writeOutput

/-- The bytes `bs` have been emitted and counted, and the fence tested (R383, R385). -/
structure Emits (a b : DecoderState) (bs : List Byte) : Prop where
  RB : b.RB = (bs.foldl DecoderState.emit a).RB
  H : b.H = a.H ++ bs
  pos : b.pos = a.pos + bs.length
  flushed : b.flushed = a.flushed
  metaBlockLength : b.metaBlockLength = a.metaBlockLength - bs.length
  field : b.field = .start
  fence : if b.fence ≤ b.pos then b.runningState = .writeOutput else b.runningState ≠ .writeOutput
  outCap : b.outCap = a.outCap

/-- What one element step, begun or gone on with at registers `a`, leaves in registers `b`. -/
inductive Outcome (a b : DecoderState) : Prop where
  /-- the stream header: the window is set -/
  | window (h : a.runningState = .initialized) (q : Quiet a b) (f : b.field = .start) (d : b.runningState = .blockStart)
  /-- nothing is produced; only header and metadata elements change the length -/
  | quiet (h : a.runningState ≠ .uninitialized ∧ a.runningState ≠ .initialized) (q : Quiet a b) (s : SameSetup a b)
      (m : b.metaBlockLength = a.metaBlockLength ∨ a.runningState = .metablockHeader ∨ a.runningState = .metadata)
  | emits (h : a.runningState ≠ .uninitialized ∧ a.runningState ≠ .initialized) (bs : List Byte) (e : Emits a b bs)
      (s : SameSetup a b) (r : a.runningState ≠ .metadata) (f : a.Accounted → bs.length ≤ a.metaBlockLength)
      (l : bs.length ≤ 1 ∨ ∃ m w, w.length ≤ 24 ∧ bs = transformWord w m)

/-- What one element step leaves in registers `b`, `n` bits consumed. -/
structure Row (a : DecoderState) (n : Nat) (b : DecoderState) : Prop where
  bitpos : b.bitpos = a.bitpos + n
  outcome : Outcome a b
  transfer : b.runningState = a.runningState ∨ Transfer a b
  accounted : a.Accounted → b.Accounted
  counted : b.field ≠ .start → a.runningState = .metablockHeader ∨ b.metaBlockLength = a.metaBlockLength

/-- Outside the three copying states nothing is owed. -/
theorem accounted_of_state {st : DecoderState} (h1 : st.decodingState ≠ .insertLoop) (h2 : st.decodingState ≠ .copyLoop)
    (h3 : st.decodingState ≠ .compoundDictionaryCopy) : st.Accounted := by
  unfold DecoderState.Accounted
  split <;> first | exact absurd ‹_› h1 | exact absurd ‹_› h2 | exact absurd ‹_› h3 | trivial

/-- The registers of the output, the length, the setup and the state are the same. -/
structure Still (a b : DecoderState) : Prop where
  RB : b.RB = a.RB
  H : b.H = a.H
  pos : b.pos = a.pos
  flushed : b.flushed = a.flushed
  metaBlockLength : b.metaBlockLength = a.metaBlockLength
  run : b.runningState = a.runningState
  bitpos : b.bitpos = a.bitpos
  setup : SameSetup a b

theorem Still.trans {a b c : DecoderState} (h : Still a b) (h' : Still b c) : Still a c :=
  ⟨h'.1.trans h.1, h'.2.trans h.2, h'.3.trans h.3, h'.4.trans h.4, h'.5.trans h.5, h'.6.trans h.6, h'.7.trans h.7,
    sameSetup_trans h.8 h'.8⟩

theorem still_startCode (st : DecoderState) (a l) : Still st (st.startCode a l) :=
  ⟨rfl, rfl, rfl, rfl, rfl, rfl, rfl, ⟨rfl, rfl, rfl, rfl, rfl, rfl, rfl, rfl⟩⟩

theorem still_enterPhase (st : DecoderState) (p) : Still st (st.enterPhase p) := by
  cases p <;> exact ⟨rfl, rfl, rfl, rfl, rfl, rfl, rfl, ⟨rfl, rfl, rfl, rfl, rfl, rfl, rfl, rfl⟩⟩

theorem still_afterPartition (st : DecoderState) (k) : Still st (st.afterPartition k) := by
  unfold DecoderState.afterPartition
  cases k <;> exact still_enterPhase _ _

theorem still_setMap (st : DecoderState) (m) : Still st (st.setMap m) :=
  ⟨rfl, rfl, rfl, rfl, rfl, rfl, rfl, ⟨rfl, rfl, rfl, rfl, rfl, rfl, rfl, rfl⟩⟩

theorem still_endMap (st : DecoderState) : Still st st.endMap := by
  unfold DecoderState.endMap
  split <;> exact ⟨rfl, rfl, rfl, rfl, rfl, rfl, rfl, ⟨rfl, rfl, rfl, rfl, rfl, rfl, rfl, rfl⟩⟩

theorem setup_deliver (st : DecoderState) (T) : SameSetup st (st.deliver T) := by
  unfold DecoderState.deliver
  split <;> (try unfold DecoderState.deliverPartition) <;> (try simp only []) <;> (try split) <;> constructor <;> simp

theorem still_deliver (st : DecoderState) (T) : Still st (st.deliver T) := by
  have k := kept_deliver st T
  exact ⟨k.ringBuffer, k.H, k.pos, k.flushed, k.metaBlockLength, (deliver_run st T).1, (deliver_run st T).2.2.1,
    setup_deliver st T⟩

/-- A header element that moves within the compressed header. -/
theorem row_still {a b a' : DecoderState} {n : Nat} (ha : a' = { a with bitpos := a.bitpos + n })
    (hr : a.runningState = .metablockHuffmanData ∨ a.runningState = .mainLoop ∨ a.runningState = .finished)
    (h : Still a' b) : Row a n b := by
  subst ha
  have hb : b.runningState = a.runningState := h.run
  refine ⟨h.bitpos, .quiet ?_ ⟨h.RB, h.H, h.pos, h.flushed, ?_⟩ ?_ (.inl h.metaBlockLength), .inl hb, fun _ => ?_,
    fun _ => .inr h.metaBlockLength⟩
  · rcases hr with hr | hr | hr <;> simp [hr]
  · rcases hr with hr | hr | hr <;> simp [hb, hr]
  · exact ⟨h.setup.1, h.setup.2, h.setup.3, h.setup.4, h.setup.5, h.setup.6, h.setup.7, h.setup.8⟩
  · apply accounted_of_state <;> unfold DecoderState.decodingState <;> rcases hr with hr | hr | hr <;> simp [hb, hr]

/-- An element did not complete the step or completed it, with registers `b`; or it failed. -/
def Ends (s : State) (n : Nat) (u : State) : Prop :=
  (∃ k, u = s.raise k) ∨ ∃ b, u = { s.advance n with st := b } ∧ Row s.st n b

theorem ends_raise (s : State) (n k) : Ends s n ((s.advance n).raise k) := .inl ⟨k, advance_raise s n k⟩

/-- A row of the stream or meta-block header. -/
theorem ends_header {s : State} {n : Nat} {b : DecoderState} (hr : s.st.runningState = .metablockHeader)
    (k : Kept s.st { b with metaBlockLength := s.st.metaBlockLength }) (hs : SameSetup s.st b) (hb : b.bitpos = s.st.bitpos + n)
    (ht : b.runningState = s.st.runningState ∨ Transfer s.st b)
    (hd : b.runningState ≠ .writeOutput ∧ b.runningState ≠ .insertLoop ∧ b.runningState ≠ .copyLoop ∧
      b.runningState ≠ .compoundDictionaryCopy) : Ends s n { s.advance n with st := b } := by
  refine .inr ⟨b, rfl, hb, .quiet (by simp [hr]) ⟨k.ringBuffer, k.H, k.pos, k.flushed, hd.1⟩ hs (.inr (.inl hr)), ht,
    fun _ => ?_, fun _ => .inl hr⟩
  apply accounted_of_state <;> unfold DecoderState.decodingState <;> rw [if_neg hd.1] <;> tauto

theorem row_header {s u : State} {c n} (hi : BaseInv s) (hr : s.st.runningState = .metablockHeader)
    (at_ : At s.st c) (he : Effect (s.advance n) c u) : Ends s n u := by
  have h := hi.regs.field
  unfold DecoderState.FieldFits at h
  cases he <;> simp only [At, hr, reduceCtorEq, false_and, and_false, or_false, false_or] at at_
  case isLast a =>
    refine ends_header hr (b := ((s.advance n).headerIsLast a).st) ?_ ?_ rfl (.inl rfl) (by simp [State.headerIsLast, hr])
    all_goals (constructor <;> rfl)
  case isLastEmpty a =>
    simp only [at_.2] at h
    unfold State.headerIsLastEmpty
    cases a
    · refine ends_header hr ?_ ?_ rfl (.inl rfl) (by simp [hr])
      all_goals (constructor <;> rfl)
    · refine ends_header hr ?_ ?_ rfl (.inr (.emptyLast hr rfl h.2.2.2)) (by simp)
      all_goals (constructor <;> rfl)
  case mnibbles m hm =>
    unfold State.headerNibbles
    split
    · refine ends_header hr ?_ ?_ rfl (.inl rfl) (by simp [hr])
      all_goals (constructor <;> rfl)
    · refine ends_header hr ?_ ?_ rfl (.inl rfl) (by simp [hr])
      all_goals (constructor <;> rfl)
  case mlen nn m hn hm =>
    simp only [at_.2] at h
    unfold State.headerLength
    split
    · exact ends_raise s n _
    · simp only []
      split
      · refine ends_header hr ?_ ?_ rfl (.inr (.compressed hr rfl ⟨h.2.2.1, h.2.1⟩)) (by simp [DecoderState.compressedHeader])
        all_goals (constructor <;> rfl)
      · refine ends_header hr ?_ ?_ rfl (.inl rfl) (by simp [hr])
        all_goals (constructor <;> rfl)
  case isUncompressed a =>
    simp only [at_.2] at h
    unfold State.headerIsUncompressed
    cases a
    · refine ends_header hr ?_ ?_ rfl (.inr (.compressed hr rfl ⟨rfl, h.2.1⟩)) (by simp [DecoderState.compressedHeader])
      all_goals (constructor <;> rfl)
    · refine ends_header hr ?_ ?_ rfl (.inl rfl) (by simp [hr])
      all_goals (constructor <;> rfl)
  case reserved =>
    refine ends_header hr (b := ((s.advance n).headerReserved).st) ?_ ?_ rfl (.inl rfl) (by simp [State.headerReserved, hr])
    all_goals (constructor <;> rfl)
  case mskipbytes m hm =>
    unfold State.headerSkipBytes
    split
    · refine ends_header hr ?_ ?_ rfl (.inl rfl) (by simp [hr])
      all_goals (constructor <;> rfl)
    · refine ends_header hr ?_ ?_ rfl (.inl rfl) (by simp [hr])
      all_goals (constructor <;> rfl)
  case mskiplen nb k hn hk =>
    unfold State.headerSkipLength
    split
    · exact ends_raise s n _
    · refine ends_header hr ?_ ?_ rfl (.inl rfl) (by simp [hr])
      all_goals (constructor <;> rfl)
  case pad w =>
    have hm : (s.advance n).st.isMetadata = s.st.isMetadata := rfl
    simp only [at_.2.1] at h
    unfold State.headerPadded
    split
    · refine ends_header hr ?_ ?_ rfl (.inr (.metadata hr rfl (hm ▸ ‹_›))) (by simp)
      all_goals (constructor <;> rfl)
    · have hd : s.st.isMetadata = false := Bool.eq_false_iff.mpr (hm ▸ ‹¬ _›)
      have hu : s.st.isUncompressed = true := h.2.resolve_left (by simp [hd])
      refine ends_header hr ?_ ?_ rfl (.inr (.uncompressed hr rfl ⟨hu, hd⟩)) (by simp)
      all_goals (constructor <;> rfl)

theorem ends_still {s : State} {n : Nat} {b : DecoderState}
    (hr : s.st.runningState = .metablockHuffmanData ∨ s.st.runningState = .mainLoop ∨ s.st.runningState = .finished)
    (h : Still (s.advance n).st b) : Ends s n { s.advance n with st := b } := .inr ⟨b, rfl, row_still rfl hr h⟩

theorem still_of_eq {a b : DecoderState} (h1 : b.RB = a.RB) (h2 : b.H = a.H) (h3 : b.pos = a.pos)
    (h4 : b.flushed = a.flushed) (h5 : b.metaBlockLength = a.metaBlockLength) (h6 : b.runningState = a.runningState)
    (h7 : b.bitpos = a.bitpos) (h8 : SameSetup a b) : Still a b := ⟨h1, h2, h3, h4, h5, h6, h7, h8⟩

theorem ends_symbolLengthDone {s : State} {n : Nat} {b : DecoderState} (hr : s.st.runningState = .metablockHuffmanData)
    (h : Still (s.advance n).st b) : Ends s n ((s.advance n).symbolLengthDone b) := by
  unfold State.symbolLengthDone
  split
  · exact ends_still (.inl hr) h
  · split
    · exact ends_raise s n _
    · exact ends_still (.inl hr) (h.trans (still_deliver _ _))

theorem still_mapDone (st : DecoderState) (n) : Still st (st.mapDone n) := by
  unfold DecoderState.mapDone
  simp only []
  split <;> exact ⟨rfl, rfl, rfl, rfl, rfl, rfl, rfl, ⟨rfl, rfl, rfl, rfl, rfl, rfl, rfl, rfl⟩⟩

theorem ends_repeatLength {s : State} {n : Nat} (hr : s.st.runningState = .metablockHuffmanData) (l xb x : Nat) :
    Ends s n ((s.advance n).repeatLength l xb x) := by
  unfold State.repeatLength
  simp only []
  generalize (if (s.advance n).st.repeatCodeLen = l then (s.advance n).st.repeatCount else 0) = old
  generalize (if old > 0 then (old - 2) <<< xb else 0) + x + 3 = tot
  split
  · exact ends_raise s n _
  · refine ends_symbolLengthDone hr ?_
    exact ⟨rfl, rfl, rfl, rfl, rfl, rfl, rfl, ⟨rfl, rfl, rfl, rfl, rfl, rfl, rfl, rfl⟩⟩

theorem row_huffman {s u : State} {c n} (hr : s.st.runningState = .metablockHuffmanData)
    (at_ : At s.st c) (he : Effect (s.advance n) c u) : Ends s n u := by
  have hq : ∀ {b : DecoderState}, Still (s.advance n).st b → Ends s n { s.advance n with st := b } :=
    fun h => ends_still (.inl hr) h
  cases he <;> simp only [At, hr, reduceCtorEq, false_and, and_false, or_false, false_or] at at_
  case varlen8 v hv =>
    exact hq (b := ((s.advance n).varlen8 v).st) ⟨rfl, rfl, rfl, rfl, rfl, rfl, rfl, ⟨rfl, rfl, rfl, rfl, rfl, rfl, rfl, rfl⟩⟩
  case nbltypes v =>
    unfold State.blockTypes DecoderState.setBlockTypes
    simp only []
    split
    · refine hq (Still.trans ?_ (still_afterPartition _ _))
      exact ⟨rfl, rfl, rfl, rfl, rfl, rfl, rfl, ⟨rfl, rfl, rfl, rfl, rfl, rfl, rfl, rfl⟩⟩
    · exact hq ⟨rfl, rfl, rfl, rfl, rfl, rfl, rfl, ⟨rfl, rfl, rfl, rfl, rfl, rfl, rfl, rfl⟩⟩
  case ntrees v =>
    unfold State.mapTrees DecoderState.setMapTrees
    simp only []
    split
    · refine hq (Still.trans (Still.trans ?_ (still_setMap _ _)) (still_endMap _))
      exact ⟨rfl, rfl, rfl, rfl, rfl, rfl, rfl, ⟨rfl, rfl, rfl, rfl, rfl, rfl, rfl, rfl⟩⟩
    · exact hq ⟨rfl, rfl, rfl, rfl, rfl, rfl, rfl, ⟨rfl, rfl, rfl, rfl, rfl, rfl, rfl, rfl⟩⟩
  case npostfix p hp =>
    exact hq (b := ((s.advance n).postfixBits p).st) ⟨rfl, rfl, rfl, rfl, rfl, rfl, rfl, ⟨rfl, rfl, rfl, rfl, rfl, rfl, rfl, rfl⟩⟩
  case ndirecthi d hd =>
    unfold State.directCodes
    split
    · exact ends_raise s n _
    · refine hq (Still.trans ?_ (still_enterPhase _ _))
      exact ⟨rfl, rfl, rfl, rfl, rfl, rfl, rfl, ⟨rfl, rfl, rfl, rfl, rfl, rfl, rfl, rfl⟩⟩
  case cmode m hm =>
    unfold State.contextMode
    simp only []
    split
    · exact hq ⟨rfl, rfl, rfl, rfl, rfl, rfl, rfl, ⟨rfl, rfl, rfl, rfl, rfl, rfl, rfl, rfl⟩⟩
    · refine hq (Still.trans ?_ (still_enterPhase _ _))
      exact ⟨rfl, rfl, rfl, rfl, rfl, rfl, rfl, ⟨rfl, rfl, rfl, rfl, rfl, rfl, rfl, rfl⟩⟩
  case rlemaxflag a =>
    unfold State.rleFlag
    split <;> exact hq ⟨rfl, rfl, rfl, rfl, rfl, rfl, rfl, ⟨rfl, rfl, rfl, rfl, rfl, rfl, rfl, rfl⟩⟩
  case rlemaxm1 r hr' =>
    exact hq (b := ((s.advance n).rleMax r).st) ⟨rfl, rfl, rfl, rfl, rfl, rfl, rfl, ⟨rfl, rfl, rfl, rfl, rfl, rfl, rfl, rfl⟩⟩
  case cmapZero => exact hq (b := ((s.advance n).mapEntry 0).st) ((still_setMap _ _).trans (still_mapDone _ _))
  case cmapValue x hx _ => exact hq (b := ((s.advance n).mapEntry _).st) ((still_setMap _ _).trans (still_mapDone _ _))
  case cmapRun x y _ _ =>
    unfold State.mapRun
    split
    · exact ends_raise s n _
    · exact hq ((still_setMap _ _).trans (still_mapDone _ _))
  case imtf a =>
    unfold State.mapTransform
    simp only []
    have h0 : Still (s.advance n).st { (s.advance n).st with field := .start } :=
      ⟨rfl, rfl, rfl, rfl, rfl, rfl, rfl, ⟨rfl, rfl, rfl, rfl, rfl, rfl, rfl, rfl⟩⟩
    split
    · exact hq ((h0.trans (still_setMap _ _)).trans (still_endMap _))
    · exact hq (h0.trans (still_endMap _))
  case hskip m hm =>
    unfold State.codeStart
    split <;> exact hq ⟨rfl, rfl, rfl, rfl, rfl, rfl, rfl, ⟨rfl, rfl, rfl, rfl, rfl, rfl, rfl, rfl⟩⟩
  case nsymm1 m hm =>
    exact hq (b := ((s.advance n).simpleCount m).st) ⟨rfl, rfl, rfl, rfl, rfl, rfl, rfl, ⟨rfl, rfl, rfl, rfl, rfl, rfl, rfl, rfl⟩⟩
  case symbol w x hx =>
    unfold State.simpleSymbol State.endSimple
    simp only []
    split
    · exact hq ⟨rfl, rfl, rfl, rfl, rfl, rfl, rfl, ⟨rfl, rfl, rfl, rfl, rfl, rfl, rfl, rfl⟩⟩
    · split
      · exact hq ⟨rfl, rfl, rfl, rfl, rfl, rfl, rfl, ⟨rfl, rfl, rfl, rfl, rfl, rfl, rfl, rfl⟩⟩
      · split
        · exact ends_raise s n _
        · split
          · exact ends_raise s n _
          · refine hq (Still.trans ?_ (still_deliver _ _))
            exact ⟨rfl, rfl, rfl, rfl, rfl, rfl, rfl, ⟨rfl, rfl, rfl, rfl, rfl, rfl, rfl, rfl⟩⟩
  case treeselect a =>
    unfold State.simpleTree State.endSimple
    split
    · exact ends_raise s n _
    · split
      · exact ends_raise s n _
      · refine hq (Still.trans ?_ (still_deliver _ _))
        exact ⟨rfl, rfl, rfl, rfl, rfl, rfl, rfl, ⟨rfl, rfl, rfl, rfl, rfl, rfl, rfl, rfl⟩⟩
  case cllen v hv =>
    unfold State.codeLengthLength
    simp only []
    generalize (if v = 0 then (s.advance n).st.clSpace else _) = A
    generalize (if v = 0 then (s.advance n).st.clNum else _) = B
    split
    · split
      · exact ends_raise s n _
      · exact hq ⟨rfl, rfl, rfl, rfl, rfl, rfl, rfl, ⟨rfl, rfl, rfl, rfl, rfl, rfl, rfl, rfl⟩⟩
    · exact hq ⟨rfl, rfl, rfl, rfl, rfl, rfl, rfl, ⟨rfl, rfl, rfl, rfl, rfl, rfl, rfl, rfl⟩⟩
  case clsym x hx =>
    unfold State.symbolLength
    exact ends_symbolLengthDone hr ⟨rfl, rfl, rfl, rfl, rfl, rfl, rfl, ⟨rfl, rfl, rfl, rfl, rfl, rfl, rfl, rfl⟩⟩
  case blen x y _ _ =>
    unfold State.blockCountCode State.blockCount
    obtain ⟨-, h1, h2, h3, h4⟩ := at_
    simp only [advance_st, h3]
    refine hq (Still.trans ?_ (still_afterPartition _ _))
    exact ⟨rfl, rfl, rfl, rfl, rfl, rfl, rfl, ⟨rfl, rfl, rfl, rfl, rfl, rfl, rfl, rfl⟩⟩
  case clsym16 x hx => exact ends_repeatLength hr _ _ _
  case clsym17 x hx => exact ends_repeatLength hr _ _ _

/-- `Emit` of each byte of `bs` (R383). -/
theorem emitAll_eq (st : DecoderState) (bs : List Byte) :
    bs.foldl DecoderState.emit st =
      { st with RB := (bs.foldl DecoderState.emit st).RB, H := st.H ++ bs, pos := st.pos + bs.length } := by
  induction bs generalizing st with
  | nil => simp
  | cons b bs ih => rw [List.foldl_cons, ih]; simp [DecoderState.emit]; omega

/-- What is emitted depends on the ring buffer, its size and the position only. -/
theorem emitAll_RB {a b : DecoderState} (h1 : a.RB = b.RB) (h2 : a.pos = b.pos) (h3 : a.windowBits = b.windowBits)
    (bs : List Byte) : (bs.foldl DecoderState.emit a).RB = (bs.foldl DecoderState.emit b).RB := by
  induction bs generalizing a b with
  | nil => exact h1
  | cons x bs ih =>
    rw [List.foldl_cons, List.foldl_cons]
    exact ih (by simp [DecoderState.emit, DecoderState.RS, h1, h2, h3]) (by simp [h2]) (by simp [h3])

theorem row_main {s u : State} {c n} (hr : s.st.runningState = .mainLoop)
    (at_ : At s.st c) (he : Effect (s.advance n) c u) : Ends s n u := by
  have hq : ∀ {b : DecoderState}, Still (s.advance n).st b → Ends s n { s.advance n with st := b } :=
    fun h => ends_still (.inr (.inl hr)) h
  cases he <;> simp only [At, hr, reduceCtorEq, false_and, and_false, or_false, false_or, true_and, true_or] at at_
  case btype t _ =>
    exact hq (b := ((s.advance n).switchType t).st) ⟨rfl, rfl, rfl, rfl, rfl, rfl, rfl, ⟨rfl, rfl, rfl, rfl, rfl, rfl, rfl, rfl⟩⟩
  case blen x y _ _ =>
    obtain ⟨t, ht⟩ := at_
    unfold State.blockCountCode State.blockCount
    simp only [advance_st, ht]
    exact hq ⟨rfl, rfl, rfl, rfl, rfl, rfl, rfl, ⟨rfl, rfl, rfl, rfl, rfl, rfl, rfl, rfl⟩⟩
  case cmd x _ =>
    exact hq (b := ((s.advance n).command x).st) ⟨rfl, rfl, rfl, rfl, rfl, rfl, rfl, ⟨rfl, rfl, rfl, rfl, rfl, rfl, rfl, rfl⟩⟩
  case insLen x _ =>
    exact hq (b := ((s.advance n).insertLengthCode _ x).st) ⟨rfl, rfl, rfl, rfl, rfl, rfl, rfl, ⟨rfl, rfl, rfl, rfl, rfl, rfl, rfl, rfl⟩⟩
  case copyLen code x _ =>
    unfold State.copyLengthCode
    split
    · exact ends_raise s n _
    · rename_i hle
      refine .inr ⟨_, rfl, rfl, .quiet (by simp [hr]) ⟨rfl, rfl, rfl, rfl, by simp⟩ ⟨rfl, rfl, rfl, rfl, rfl, rfl, rfl, rfl⟩ (.inl rfl),
        .inr (.command hr rfl), fun _ => ?_, fun h => absurd rfl h⟩
      have hle' : s.st.insertLength ≤ s.st.metaBlockLength := Nat.le_of_not_lt hle
      simp only [DecoderState.Accounted, DecoderState.decodingState, reduceCtorEq, if_false]
      show s.st.insertLength ≤ 0 + s.st.metaBlockLength
      omega

theorem ends_switch {s : State} {n : Nat} {b : DecoderState} (hr : s.st.runningState = .insertLoop)
    (h : Still (s.advance n).st b) (hj : b.j = s.st.j) (hl : b.insertLength = s.st.insertLength) :
    Ends s n { s.advance n with st := b } := by
  have hb : b.runningState = .insertLoop := h.run.trans hr
  have hm : b.metaBlockLength = s.st.metaBlockLength := h.metaBlockLength
  refine .inr ⟨b, rfl, h.bitpos, .quiet (by simp [hr]) ⟨h.RB, h.H, h.pos, h.flushed, by simp [hb]⟩
    ⟨h.setup.1, h.setup.2, h.setup.3, h.setup.4, h.setup.5, h.setup.6, h.setup.7, h.setup.8⟩ (.inl hm), .inl h.run, ?_, fun _ => .inr hm⟩
  intro ha
  simp only [DecoderState.Accounted, DecoderState.decodingState, hr, hb, reduceCtorEq, if_false] at ha ⊢
  rw [hj, hl, hm]; exact ha

/-- One byte out. -/
theorem ends_emit {s : State} {n : Nat} {b : DecoderState} {w : List Byte} {r : RunningState}
    (h0 : s.st.runningState ≠ .uninitialized ∧ s.st.runningState ≠ .initialized ∧ s.st.runningState ≠ .metadata)
    (hRB : b.RB = (w.foldl DecoderState.emit s.st).RB) (hH : b.H = s.st.H ++ w) (hp : b.pos = s.st.pos + w.length)
    (hf : b.flushed = s.st.flushed) (hm : b.metaBlockLength = s.st.metaBlockLength - w.length)
    (hw : s.st.Accounted → w.length ≤ s.st.metaBlockLength)
    (hl : w.length ≤ 1 ∨ ∃ m x, x.length ≤ 24 ∧ w = transformWord x m) (ho : b.outCap = s.st.outCap) (hd : b.field = .start)
    (hb : b.bitpos = s.st.bitpos + n) (hs : SameSetup s.st b) (hr : r ≠ .writeOutput)
    (ht : if b.fence ≤ b.pos then Transfer s.st { b with resumeState := r, runningState := .writeOutput }
      else r = s.st.runningState ∨ Transfer s.st { b with runningState := r })
    (ha : s.st.Accounted → ({ b with runningState := r } : DecoderState).Accounted) : Row s.st n (b.fenceTest r) := by
  unfold DecoderState.fenceTest
  have hs' : SameSetup s.st (b.fenceTest r) := by
    unfold DecoderState.fenceTest; split <;> exact ⟨hs.1, hs.2, hs.3, hs.4, hs.5, hs.6, hs.7, hs.8⟩
  unfold DecoderState.fenceTest at hs'
  by_cases hfe : b.pos ≥ b.fence
  · rw [if_pos hfe] at hs' ⊢
    rw [if_pos hfe] at ht
    refine ⟨hb, .emits ⟨h0.1, h0.2.1⟩ w ⟨hRB, hH, hp, hf, hm, hd, ?_, ho⟩ hs' h0.2.2 hw hl, .inr ht, ?_, fun h => absurd hd h⟩
    · show if b.fence ≤ b.pos then RunningState.writeOutput = .writeOutput else RunningState.writeOutput ≠ .writeOutput
      rw [if_pos hfe]
    · intro h
      have h2 := ha h
      simp only [DecoderState.Accounted, DecoderState.decodingState, if_neg hr, if_true] at h2 ⊢
      exact h2
  · rw [if_neg hfe] at hs' ⊢
    rw [if_neg hfe] at ht
    refine ⟨hb, .emits ⟨h0.1, h0.2.1⟩ w ⟨hRB, hH, hp, hf, hm, hd, ?_, ho⟩ hs' h0.2.2 hw hl, ht, ha, fun h => absurd hd h⟩
    show if b.fence ≤ b.pos then r = .writeOutput else r ≠ .writeOutput
    rw [if_neg hfe]
    exact hr

theorem ends_resolve {s : State} {n : Nat} {st : DecoderState} (hr : s.st.runningState = .insertLoop)
    (h : Still (s.advance n).st st) : Ends s n ((s.advance n).resolve st) := by
  have hs : SameSetup s.st st := ⟨h.setup.1, h.setup.2, h.setup.3, h.setup.4, h.setup.5, h.setup.6, h.setup.7, h.setup.8⟩
  have hm : st.metaBlockLength = s.st.metaBlockLength := h.metaBlockLength
  rcases resolve_cases (s.advance n) st with ⟨h1, h2⟩ | ⟨-, -, h2⟩ | ⟨h1, h3, -, h2⟩ | ⟨h1, h3, -, -, h2⟩ <;> rw [h2]
  · refine .inr ⟨_, rfl, h.bitpos, .quiet (by simp [hr]) ⟨h.RB, h.H, h.pos, h.flushed, by simp⟩ ⟨hs.1, hs.2, hs.3, hs.4, hs.5, hs.6, hs.7, hs.8⟩ (.inl hm),
      .inr (.dictionary hr rfl h1), fun _ => ?_, fun h => absurd rfl h⟩
    apply accounted_of_state <;> simp [DecoderState.decodingState]
  · exact ends_raise s n _
  · refine .inr ⟨_, rfl, h.bitpos, .quiet (by simp [hr]) ⟨h.RB, h.H, h.pos, h.flushed, by simp⟩ ⟨hs.1, hs.2, hs.3, hs.4, hs.5, hs.6, hs.7, hs.8⟩ (.inl hm),
      .inr (.history hr rfl h1), fun _ => ?_, fun h => absurd rfl h⟩
    simp only [DecoderState.Accounted, DecoderState.decodingState, reduceCtorEq, if_false]
    exact ⟨Nat.zero_le _, by omega⟩
  · refine .inr ⟨_, rfl, h.bitpos, .quiet (by simp [hr]) ⟨h.RB, h.H, h.pos, h.flushed, by simp⟩ ⟨hs.1, hs.2, hs.3, hs.4, hs.5, hs.6, hs.7, hs.8⟩ (.inl hm),
      .inr (.history hr rfl h1), fun _ => ?_, fun h => absurd rfl h⟩
    simp only [DecoderState.Accounted, DecoderState.decodingState, reduceCtorEq, if_false]
    exact ⟨Nat.zero_le _, show st.copyLength ≤ 0 + st.metaBlockLength by omega⟩

theorem ends_explicit {s : State} {n : Nat} (hr : s.st.runningState = .insertLoop) (sym : Nat) (d : Int) :
    Ends s n ((s.advance n).explicitDistance sym d) := by
  unfold State.explicitDistance
  split
  · exact ends_raise s n _
  · exact ends_resolve hr ⟨rfl, rfl, rfl, rfl, rfl, rfl, rfl, ⟨rfl, rfl, rfl, rfl, rfl, rfl, rfl, rfl⟩⟩

theorem row_insert {s u : State} {c n} (hr : s.st.runningState = .insertLoop)
    (at_ : At s.st c) (he : Effect (s.advance n) c u) : Ends s n u := by
  cases he <;> simp only [At, hr, reduceCtorEq, false_and, and_false, or_false, false_or, true_and, true_or] at at_
  case btype t _ =>
    exact ends_switch hr (b := ((s.advance n).switchType t).st) ⟨rfl, rfl, rfl, rfl, rfl, rfl, rfl, ⟨rfl, rfl, rfl, rfl, rfl, rfl, rfl, rfl⟩⟩ rfl rfl
  case blen x y _ _ =>
    obtain ⟨t, ht⟩ := at_
    unfold State.blockCountCode State.blockCount
    simp only [advance_st, ht]
    exact ends_switch hr ⟨rfl, rfl, rfl, rfl, rfl, rfl, rfl, ⟨rfl, rfl, rfl, rfl, rfl, rfl, rfl, rfl⟩⟩ rfl rfl
  case lit b =>
    have ha' : s.st.Accounted → s.st.insertLength ≤ s.st.j + s.st.metaBlockLength := by
      intro ha
      simpa only [DecoderState.Accounted, DecoderState.decodingState, hr, reduceCtorEq, if_false] using ha
    refine .inr ⟨_, rfl, ?_⟩
    refine ends_emit (w := [b]) (by simp [hr]) rfl rfl rfl rfl rfl (fun h => by have := ha' h; simp; omega) (.inl (by simp)) rfl rfl rfl
      ⟨rfl, rfl, rfl, rfl, rfl, rfl, rfl, rfl⟩ (by simp) ?_ ?_
    · split
      · exact .fence (.inl hr) rfl ‹_› hr.symm
      · exact .inl hr.symm
    · intro h
      have := ha' h
      simp only [DecoderState.Accounted, DecoderState.decodingState, reduceCtorEq, if_false]
      show s.st.insertLength ≤ s.st.j + 1 + (s.st.metaBlockLength - 1)
      omega
  case distImplicit =>
    exact ends_resolve hr ⟨rfl, rfl, rfl, rfl, rfl, rfl, rfl, ⟨rfl, rfl, rfl, rfl, rfl, rfl, rfl, rfl⟩⟩
  case distShort => exact ends_explicit hr _ _
  case distDirect => exact ends_explicit hr _ _
  case distLong => exact ends_explicit hr _ _

theorem row_others {s u : State} {c n}
    (hr : s.st.runningState = .initialized ∨ s.st.runningState = .uncompressed ∨ s.st.runningState = .metadata ∨
      s.st.runningState = .finished ∨ s.st.runningState = .useDictionary)
    (at_ : At s.st c) (he : Effect (s.advance n) c u) : Ends s n u := by
  have hwin : ∀ large wb, s.st.runningState = .initialized → Ends s n ((s.advance n).setWindow large wb) := by
    intro large wb h
    refine .inr ⟨((s.advance n).setWindow large wb).st, rfl, rfl, .window h ⟨rfl, rfl, rfl, rfl, by simp [State.setWindow]⟩ rfl rfl,
      .inr (.streamHeader h rfl), fun _ => ?_, fun h => absurd rfl h⟩
    apply accounted_of_state <;> simp [DecoderState.decodingState, State.setWindow]
  cases he <;> (try (exfalso; simp only [At] at at_; rcases hr with h | h | h | h | h <;> simp [h] at at_; done)) <;> (try exact at_.elim)
  case window wb h => exact hwin _ _ at_.1
  case largeWindow wb =>
    unfold State.setLargeWindow; split
    · exact ends_raise s n _
    · exact hwin _ _ at_.1
  case reservedWindow => exact ends_raise s n _
  case finalPad w =>
    exact ends_still (.inr (.inr at_.1)) (b := ((s.advance n).finalPadded).st) ⟨rfl, rfl, rfl, rfl, rfl, rfl, rfl, ⟨rfl, rfl, rfl, rfl, rfl, rfl, rfl, rfl⟩⟩
  case raw b =>
    obtain ⟨h1, h2, h3⟩ := at_
    refine .inr ⟨_, rfl, ?_⟩
    refine ends_emit (w := [b]) (by simp [h1]) rfl rfl rfl rfl rfl (fun _ => by simp; omega) (.inl (by simp)) rfl rfl rfl
      ⟨rfl, rfl, rfl, rfl, rfl, rfl, rfl, rfl⟩ (by simp) ?_ ?_
    · split
      · exact .fence (.inr (.inr (.inr h1))) rfl ‹_› h1.symm
      · exact .inl h1.symm
    · intro _
      apply accounted_of_state <;> simp [DecoderState.decodingState]
  case skip =>
    obtain ⟨h1, h2, h3⟩ := at_
    refine .inr ⟨((s.advance n).skipByte).st, rfl, rfl, .quiet (by simp [h1]) ⟨rfl, rfl, rfl, rfl, ?_⟩ ⟨rfl, rfl, rfl, rfl, rfl, rfl, rfl, rfl⟩
      (.inr (.inr h1)), .inl rfl, fun _ => ?_, fun h => absurd rfl h⟩
    · simp [State.skipByte, h1]
    · apply accounted_of_state <;> simp [DecoderState.decodingState, State.skipByte, h1]
  case transform m hm =>
    obtain ⟨h1, h2⟩ := at_
    unfold State.emitWord
    split
    · exact ends_raise s n _
    · rename_i hle
      have h24 : s.st.copyLength ≤ 24 ∧ 0 ≤ s.st.dictAddress := by
        unfold DecoderState.staticReference at h2
        split at h2
        · cases h2
        · rename_i h; simp only [not_or, not_lt] at h; exact ⟨h.2.2.2, h.2.1⟩
      have hw : ∃ m' x, x.length ≤ 24 ∧ (s.advance n).staticWord m = transformWord x m' :=
        ⟨m, _, by simp [State.dictWord]; exact h24.1, rfl⟩
      have e := emitAll_eq (s.advance n).st ((s.advance n).staticWord m)
      have e' := emitAll_eq s.st ((s.advance n).staticWord m)
      have hRB : (((s.advance n).staticWord m).foldl DecoderState.emit (s.advance n).st).RB =
          (((s.advance n).staticWord m).foldl DecoderState.emit s.st).RB := emitAll_RB (a := (s.advance n).st) (b := s.st) rfl rfl rfl _
      generalize (s.advance n).staticWord m = w at *
      refine .inr ⟨_, rfl, ?_⟩
      unfold DecoderState.emitAll
      rw [e]
      refine ends_emit (w := w) (by simp [h1]) ?_ rfl rfl rfl rfl (fun _ => Nat.le_of_not_lt hle) (.inr hw) rfl rfl rfl
        ⟨rfl, rfl, rfl, rfl, rfl, rfl, rfl, rfl⟩ (by simp) ?_ ?_
      · exact hRB
      · split
        · exact .wordFence h1 rfl h24.2 ‹_› rfl
        · exact .inr (.word h1 rfl h24.2)
      · intro _
        apply accounted_of_state <;> simp [DecoderState.decodingState]

/-- Everything a row can do (R12): it fails, or leaves registers a `Row` describes. -/
theorem effect_ends {s u : State} {c n} (hi : BaseInv s) (at_ : At s.st c) (he : Effect (s.advance n) c u) :
    Ends s n u := by
  rcases hr : s.st.runningState
  case initialized => exact row_others (by simp [hr]) at_ he
  case uncompressed => exact row_others (by simp [hr]) at_ he
  case metadata => exact row_others (by simp [hr]) at_ he
  case finished => exact row_others (by simp [hr]) at_ he
  case useDictionary => exact row_others (by simp [hr]) at_ he
  case mainLoop => exact row_main hr at_ he
  case insertLoop => exact row_insert hr at_ he
  case metablockHeader => exact row_header hi hr at_ he
  case metablockHuffmanData => exact row_huffman hr at_ he
  all_goals (exfalso; cases he <;> simp [At, hr] at at_)

/-- An element step without a row that produces nothing. -/
theorem row_quiet {a b : DecoderState} (h0 : a.runningState ≠ .uninitialized ∧ a.runningState ≠ .initialized)
    (hb : b.bitpos = a.bitpos) (hq : Quiet a b) (hs : SameSetup a b) (hm : b.metaBlockLength = a.metaBlockLength)
    (ht : Transfer a b) (ha : a.Accounted → b.Accounted) : Row a 0 b :=
  ⟨hb, .quiet h0 hq hs (.inl hm), .inr ht, ha, fun _ => .inr hm⟩

/-- What the element steps without a row can do, but for BlockStart's and the two that may end the call. -/
theorem internal_ends {s : State} {op : Internal} (ha : AtInternal s.st op) (h0 : op ≠ .blockStart)
    (h1 : op ≠ .writeOutput) (h2 : op ≠ .atEnd) :
    (∃ k, op.run s = s.raise k) ∨ ∃ b, op.run s = { s with st := b } ∧ b.field = s.st.field ∧
      (s.st.field = .start → Row s.st 0 b) := by
  cases op
  case writeOutput => exact absurd rfl h1
  case atEnd => exact absurd rfl h2
  case blockStart => exact absurd rfl h0
  case endOfBlock =>
    refine .inr ⟨_, rfl, rfl, fun _ => row_quiet ?_ rfl ⟨rfl, rfl, rfl, rfl, by simp⟩ ⟨rfl, rfl, rfl, rfl, rfl, rfl, rfl, rfl⟩ rfl
      (.blockDone ?_ rfl ha.2) (fun _ => ?_)⟩
    · rcases ha.1 with h | h | h <;> simp [h]
    · rcases ha.1 with h | h | h
      · exact .inl h.1
      · exact .inr (.inl h)
      · exact .inr (.inr h)
    · apply accounted_of_state <;> simp [DecoderState.decodingState]
  case finalize =>
    obtain ⟨h3, h4, h5⟩ := ha
    refine .inr ⟨_, rfl, rfl, fun _ => row_quiet (by simp [h3]) rfl ⟨rfl, rfl, rfl, rfl, by simp⟩ ⟨rfl, rfl, rfl, rfl, rfl, rfl, rfl, rfl⟩ rfl
      (.tablesRead h3 rfl h5) (fun _ => ?_)⟩
    apply accounted_of_state <;> simp [DecoderState.decodingState]
  case literalsDone =>
    obtain ⟨h3, h4, h5, h6⟩ := ha
    refine .inr ⟨_, rfl, rfl, fun _ => row_quiet (by simp [h3]) rfl ⟨rfl, rfl, rfl, rfl, by simp⟩ ⟨rfl, rfl, rfl, rfl, rfl, rfl, rfl, rfl⟩ rfl
      (.literalsOnly h3 rfl ⟨h5, h6⟩) (fun _ => ?_)⟩
    apply accounted_of_state <;> simp [DecoderState.decodingState]
  case copy =>
    obtain ⟨h3, -⟩ := ha
    unfold Internal.run State.stepCopy
    simp only []
    split
    · rename_i hj
      refine .inr ⟨_, rfl, rfl, fun _ => row_quiet (by simp [h3]) rfl ⟨rfl, rfl, rfl, rfl, by simp⟩ ⟨rfl, rfl, rfl, rfl, rfl, rfl, rfl, rfl⟩ rfl
        (.copied h3 rfl hj) (fun _ => ?_)⟩
      apply accounted_of_state <;> simp [DecoderState.decodingState]
    · rename_i hj
      have ha' : s.st.Accounted → s.st.j ≤ s.st.copyLength ∧ s.st.copyLength ≤ s.st.j + s.st.metaBlockLength := by
        intro ha
        simpa only [DecoderState.Accounted, DecoderState.decodingState, h3, reduceCtorEq, if_false] using ha
      refine .inr ⟨_, rfl, by unfold DecoderState.fenceTest; split <;> rfl, fun hf => ?_⟩
      refine ends_emit (n := 0) (w := [s.st.ringBack s.st.distance]) (by simp [h3]) rfl rfl rfl rfl rfl
        (fun h => by have := ha' h; simp; omega) (.inl (by simp)) rfl hf rfl ⟨rfl, rfl, rfl, rfl, rfl, rfl, rfl, rfl⟩ (by simp) ?_ ?_
      · split
        · exact .fence (.inr (.inl h3)) rfl ‹_› h3.symm
        · exact .inl h3.symm
      · intro h
        have := ha' h
        simp only [DecoderState.Accounted, DecoderState.decodingState, reduceCtorEq, if_false]
        show s.st.j + 1 ≤ s.st.copyLength ∧ s.st.copyLength ≤ s.st.j + 1 + (s.st.metaBlockLength - 1)
        omega
  case compoundCopy =>
    obtain ⟨h3, -⟩ := ha
    unfold Internal.run State.stepCompoundCopy
    simp only []
    split
    · rename_i hj
      refine .inr ⟨_, rfl, rfl, fun _ => row_quiet (by simp [h3]) rfl ⟨rfl, rfl, rfl, rfl, by simp⟩ ⟨rfl, rfl, rfl, rfl, rfl, rfl, rfl, rfl⟩ rfl
        (.compoundDone h3 rfl hj) (fun _ => ?_)⟩
      apply accounted_of_state <;> simp [DecoderState.decodingState]
    · rename_i hj
      have ha' : s.st.Accounted → s.st.cdBrCopied ≤ s.st.cdBrLength ∧ s.st.cdBrLength ≤ s.st.cdBrCopied + s.st.metaBlockLength := by
        intro ha
        simpa only [DecoderState.Accounted, DecoderState.decodingState, h3, reduceCtorEq, if_false] using ha
      obtain ⟨i, o, e⟩ := skipChunks_core ({ s.st.emit (s.st.CD.getD s.st.cdAddress 0) with
          cdBrCopied := s.st.cdBrCopied + 1
          metaBlockLength := s.st.metaBlockLength - 1
          cdBrOffset := s.st.cdBrOffset + 1 } : DecoderState) 16
      rw [e]
      refine .inr ⟨_, rfl, by unfold DecoderState.fenceTest; split <;> rfl, fun hf => ?_⟩
      refine ends_emit (n := 0) (w := [s.st.CD.getD s.st.cdAddress 0]) (by simp [h3]) rfl rfl rfl rfl rfl
        (fun h => by have := ha' h; simp; omega) (.inl (by simp)) rfl hf rfl ⟨rfl, rfl, rfl, rfl, rfl, rfl, rfl, rfl⟩ (by simp) ?_ ?_
      · split
        · exact .fence (.inr (.inr (.inl h3))) rfl ‹_› h3.symm
        · exact .inl h3.symm
      · intro h
        have := ha' h
        simp only [DecoderState.Accounted, DecoderState.decodingState, reduceCtorEq, if_false]
        show s.st.cdBrCopied + 1 ≤ s.st.cdBrLength ∧ s.st.cdBrLength ≤ s.st.cdBrCopied + 1 + (s.st.metaBlockLength - 1)
        omega
  case useDictionary =>
    obtain ⟨h3, -⟩ := ha
    unfold Internal.run State.useDictionary State.compoundStart
    simp only []
    split
    · exact .inl ⟨_, rfl⟩
    · split
      · rename_i hneg
        split
        · exact .inl ⟨_, rfl⟩
        · split
          · exact .inl ⟨_, rfl⟩
          · rename_i hle
            refine .inr ⟨_, rfl, rfl, fun _ => row_quiet (by simp [h3]) rfl ⟨rfl, rfl, rfl, rfl, by simp⟩ ⟨rfl, rfl, rfl, rfl, rfl, rfl, rfl, rfl⟩ rfl
              (.compound h3 rfl hneg) (fun _ => ?_)⟩
            simp only [DecoderState.Accounted, DecoderState.decodingState, reduceCtorEq, if_false]
            exact ⟨Nat.zero_le _, show s.st.copyLength ≤ 0 + s.st.metaBlockLength by omega⟩
      · exact .inl ⟨_, rfl⟩

/-- Inside a `Decompress` the machine is never idle. -/
theorem fetch_not_idle (st : DecoderState) : st.fetch ≠ .idle := by
  have hb : ∀ c, st.fetchByte c ≠ .idle := fun c => by unfold DecoderState.fetchByte; split_ifs <;> simp
  have hw : ∀ g i f, withTree g i f ≠ .idle := fun g i f => by unfold withTree; split <;> simp
  have hs : ∀ k n, n ≠ .idle → st.fetchSymbol k n ≠ .idle := fun k n h => by
    unfold DecoderState.fetchSymbol; split_ifs <;> simp [h]
  have hp : ∀ k, st.fetchPartition k ≠ .idle := fun k => by unfold DecoderState.fetchPartition; split <;> simp
  have hm : st.fetchMap ≠ .idle := by unfold DecoderState.fetchMap; split <;> simp
  unfold DecoderState.fetch
  split
  case h_3 => unfold DecoderState.fetchHeader; split <;> simp
  case h_6 =>
    unfold DecoderState.fetchHuffmanData
    split
    · unfold DecoderState.fetchPrefixCode; split <;> first | (split <;> simp) | simp
    · split <;> first | exact hp _ | exact hm | (split <;> simp) | simp
  case h_7 =>
    unfold DecoderState.fetchMainLoop
    split <;> first | (split_ifs <;> first | exact hs _ _ (hw _ _ _) | simp) | simp
  case h_8 =>
    unfold DecoderState.fetchInsertLoop
    split <;> first | (split_ifs <;> first | exact hs _ _ (hw _ _ _) | simp) | simp
  case h_9 => unfold DecoderState.fetchCopy; split <;> simp
  case h_10 => unfold DecoderState.fetchDictionary; split <;> simp
  case h_11 => unfold DecoderState.fetchCompound; split <;> simp
  case h_13 => unfold DecoderState.fetchFinished; split <;> simp
  all_goals first | exact hb _ | simp

/-- An element step without a row begins at its start, but for the end of the stream. -/
theorem internal_field {s : State} {op : Internal} (hi : BaseInv s) (ha : AtInternal s.st op) (he : op ≠ .atEnd) :
    s.st.field = .start := by
  have hf := field_of_run hi.regs.field
  cases op <;> unfold AtInternal at ha <;> first
    | exact absurd rfl he
    | exact hf (by tauto)
    | exact ha.2.1
    | exact ha.1.elim (·.2) fun h => hf (by tauto)

/-- Where an element step is half read, what a `Pull` leaves is not changed by committing. -/
theorem pull_commit {s : State} (h : s.st.field ≠ .start) : s.pull.commit = s.pull := by
  unfold State.pull State.suspend State.raise State.endCall State.commit
  cases hs : s.source with
  | nil => rfl
  | cons a rest =>
    have h' : (match s.st.field with
        | .start => true
        | _ => false) = false := by split <;> first | exact absurd ‹_› h | rfl
    rcases a with (_ | _) | _ | _ | _ <;> cases hf : s.st.field <;> first | exact absurd hf h | simp [hf]

/-- How a step of a call ends: it asks the source for more, fails, leaves registers that `Row` describes with the element
step complete or not, ends a meta-block or the stream, delivers output, or is done. -/
theorem call_cases {s t : State} (hi : BaseInv s) (hc : s.inCall = true) (h : step s = .next t) :
    t = s.pull ∨
    (∃ k, t = s.raise k) ∨
    (∃ n b, t = ({ s.advance n with st := b } : State).commit ∧ Row s.st n b) ∨
    (s.st.runningState = .blockStart ∧ t = s.stepBlockStart.commit) ∨
    (s.st.runningState = .writeOutput ∧ t = s.stepWriteOutput.commit) ∨
    (s.st.runningState = .finished ∧ s.srcEOF = true ∧ s.st.bitpos = 8 * s.inLen ∧
      t = State.endCall .done { s with st := { s.st with field := .start } }) := by
  rcases step_cases h with ⟨h1, rfl⟩ | ⟨op, h1, rfl⟩ | ⟨c, h1, h2, rfl⟩ | ⟨c, k, h1, h2, rfl⟩ | ⟨c, i, n, u, h1, h2, h3, h4, rfl⟩
  · rw [fetch_of_inCall hc] at h1
    exact absurd h1 (fetch_not_idle _)
  · rw [fetch_of_inCall hc] at h1
    have ha := fetch_atInternal h1
    by_cases hb : op = .blockStart
    · subst hb; exact .inr (.inr (.inr (.inl ⟨ha, rfl⟩)))
    by_cases hw : op = .writeOutput
    · subst hw; exact .inr (.inr (.inr (.inr (.inl ⟨ha, rfl⟩))))
    by_cases he : op = .atEnd
    · subst he
      unfold Internal.run State.stepAtEnd
      simp only []
      split
      · exact .inr (.inl ⟨_, rfl⟩)
      · split
        · exact .inr (.inr (.inr (.inr (.inr ⟨ha.1, ‹_›, by have := hi.cursor; omega, rfl⟩))))
        · exact .inl (pull_commit (by rw [ha.2]; simp))
    · rcases internal_ends ha hb hw he with ⟨k, hk⟩ | ⟨b, e, hf, hr⟩
      · exact .inr (.inl ⟨k, by rw [hk]; rfl⟩)
      · have hs := internal_field hi ha he
        rw [hs] at hf
        refine .inr (.inr (.inl ⟨0, b, ?_, hr hs⟩))
        rw [e]
        simp [State.commit, State.advance, hf]
  · exact .inl rfl
  · exact .inr (.inl ⟨k, rfl⟩)
  · rw [fetch_of_inCall hc] at h1
    have at_ := fetch_at h1
    have ht : s.take c n = s.advance n := by
      cases c <;> first | rfl | exact at_.elim
    rw [ht] at h4
    rcases effect_ends hi at_ h4 with ⟨k, rfl⟩ | ⟨b, rfl, hr⟩
    · exact .inr (.inl ⟨k, rfl⟩)
    · exact .inr (.inr (.inl ⟨n, b, rfl, hr⟩))

end Sys2Proof.Laws
end

