-- ==== Sys2Proof/Laws/Tables.lean ====
section
/-! SUPPORT. What the table builder makes of any length array: no symbol the table answers lies outside the alphabet. -/

namespace Sys2Proof.Laws

open Sys2Proof.Machine

theorem entryLen_pack {len value : Nat} (hl : len < 65536) (hv : value < 65536) : entryLen (packEntry len value) = len := by
  unfold entryLen packEntry
  rw [BitVec.toNat_ofNat, Nat.mod_eq_of_lt (by omega)]
  omega

theorem entryValue_pack {len value : Nat} (hl : len < 65536) (hv : value < 65536) :
    entryValue (packEntry len value) = value := by
  unfold entryValue packEntry
  rw [BitVec.toNat_ofNat, Nat.mod_eq_of_lt (show len * 65536 + value < 2 ^ 32 by omega)]
  omega

/-! ## The symbols listed -/

theorem mem_symbolsFrom {len : Nat} {L : List Nat} {b s : Nat} (h : s ∈ symbolsFrom len b L) : s < b + L.length := by
  induction L generalizing b with
  | nil => cases h
  | cons l ls ih =>
    have := List.length_cons (a := l) (as := ls)
    unfold symbolsFrom at h
    split at h
    · rcases List.mem_cons.mp h with rfl | h
      · omega
      · have := ih h; omega
    · have := ih h; omega

theorem length_symbolsFrom (len b : Nat) (L : List Nat) : (symbolsFrom len b L).length = L.count len := by
  induction L generalizing b with
  | nil => rfl
  | cons l ls ih =>
    unfold symbolsFrom
    split
    · subst ‹l = len›; simp [ih]
    · simp [ih, List.count_cons, ‹¬ l = len›]

theorem mem_sortedSymbols {L : List Nat} {p : Nat × Nat} (h : p ∈ sortedSymbols L) :
    1 ≤ p.1 ∧ p.1 ≤ 15 ∧ p.2 < L.length := by
  unfold sortedSymbols at h
  obtain ⟨k, hk, h⟩ := List.mem_flatMap.mp h
  obtain ⟨s, hs, rfl⟩ := List.mem_map.mp h
  have := List.mem_range.mp hk
  have := mem_symbolsFrom hs
  exact ⟨by simp, by simp; omega, by simpa using this⟩

theorem sum_count_le (L : List Nat) (n : Nat) :
    ((List.range n).map fun k => L.count (k + 1)).sum = L.countP fun l => 1 ≤ l ∧ l ≤ n := by
  induction n with
  | zero =>
    rw [List.countP_eq_zero.mpr (fun l _ => by simp; omega)]
    rfl
  | succ n ih =>
    rw [List.range_succ, List.map_append, List.sum_append, ih]
    clear ih
    induction L with
    | nil => rfl
    | cons l ls ih =>
      simp only [List.map_cons, List.map_nil, List.sum_cons, List.sum_nil, List.countP_cons, List.count_cons] at ih ⊢
      simp only [beq_iff_eq, decide_eq_true_eq] at ih ⊢
      split_ifs <;> omega

theorem length_sortedSymbols (L : List Nat) : (sortedSymbols L).length ≤ L.length := by
  unfold sortedSymbols
  rw [List.length_flatMap]
  simp only [List.length_map, length_symbolsFrom]
  rw [sum_count_le]
  exact List.countP_le_length

/-! ## The entries -/

/-- Entry `e` at index `i` of a table over `n` symbols whose root has 256 entries: a symbol, or, in the root, a pointer
beyond the root. -/
def EntryFits (n i : Nat) (e : Entry) : Prop :=
  entryValue e < n ∧ entryLen e ≤ 8 ∨ i < 256 ∧ 8 < entryLen e ∧ 256 ≤ i + entryValue e

def EntriesFit (n : Nat) (es : List Entry) : Prop := ∀ i e, es[i]? = some e → EntryFits n i e

theorem fits_symbol {n len s : Nat} (hl : len ≤ 8) (hs : s < n) (hn : n ≤ 65536) (i : Nat) : EntryFits n i (packEntry len s) := by
  left
  rw [entryValue_pack (by omega) (by omega), entryLen_pack (by omega) (by omega)]
  exact ⟨hs, hl⟩

theorem length_replicateEntry (base step size : Nat) (item : Entry) (k : Nat) (es : List Entry) :
    (replicateEntry base step size item k es).length = es.length := by
  induction es generalizing k with
  | nil => rfl
  | cons e es ih => simp [replicateEntry, ih]

theorem getElem?_replicateEntry {base step size : Nat} {item : Entry} {k i : Nat} {es : List Entry} {e : Entry}
    (h : (replicateEntry base step size item k es)[i]? = some e) : e = item ∨ es[i]? = some e := by
  induction es generalizing k i with
  | nil => cases h
  | cons x xs ih =>
    unfold replicateEntry at h
    cases i with
    | zero =>
      simp only [List.getElem?_cons_zero, Option.some.injEq] at h ⊢
      split at h
      · exact .inl h.symm
      · exact .inr h
    | succ i =>
      simp only [List.getElem?_cons_succ] at h ⊢
      exact ih h

theorem fits_replicateEntry {n base step size : Nat} {item : Entry} {es : List Entry} (h : EntriesFit n es)
    (hi : ∀ i, EntryFits n i item) : EntriesFit n (replicateEntry base step size item 0 es) := by
  intro i e he
  rcases getElem?_replicateEntry he with rfl | he
  · exact hi i
  · exact h i e he

theorem nextTableBitSizeFrom_bounds (count : List Nat) (fuel len : Nat) (left : Int) (h : 9 ≤ len) (h' : len + fuel ≤ 15) :
    1 ≤ nextTableBitSizeFrom count 8 fuel len left ∧ nextTableBitSizeFrom count 8 fuel len left ≤ 7 := by
  induction fuel generalizing len left with
  | zero => unfold nextTableBitSizeFrom; omega
  | succ fuel ih =>
    unfold nextTableBitSizeFrom
    simp only []
    split
    · omega
    · exact ih _ _ (by omega) (by omega)

/-- The builder between two symbols, `k` of which are done. -/
structure BuilderFits (n k : Nat) (b : Builder) : Prop where
  entries : EntriesFit n b.entries
  size : b.cur + b.tableSize = b.entries.length
  root : 256 ≤ b.entries.length
  bound : b.entries.length ≤ 256 + 128 * k

theorem fits_addSymbol {n k : Nat} {b : Builder} {p : Nat × Nat} (h : BuilderFits n k b) (hp : 1 ≤ p.1 ∧ p.1 ≤ 15 ∧ p.2 < n)
    (hn : n ≤ 65536) (hk : k ≤ 272) : BuilderFits n (k + 1) (addSymbol 8 b p) := by
  obtain ⟨hp1, hp2, hp3⟩ := hp
  have hs := h.size
  have hr := h.root
  have hb := h.bound
  unfold addSymbol
  split
  · unfold addShort
    exact ⟨fits_replicateEntry h.entries (fits_symbol (by omega) hp3 hn), by simpa [length_replicateEntry] using hs,
      by simpa [length_replicateEntry] using hr, by simp [length_replicateEntry]; omega⟩
  · unfold addLong
    simp only []
    split
    · exact ⟨fits_replicateEntry h.entries (fits_symbol (by omega) hp3 hn), by simpa [length_replicateEntry] using hs,
        by simpa [length_replicateEntry] using hr, by simp [length_replicateEntry]; omega⟩
    · have hsub : 1 ≤ nextTableBitSize b.count p.1 8 ∧ nextTableBitSize b.count p.1 8 ≤ 7 :=
        nextTableBitSizeFrom_bounds _ _ _ _ (by omega) (by omega)
      generalize nextTableBitSize b.count p.1 8 = sub at hsub ⊢
      have hpow : 2 ^ sub ≤ 128 := by
        calc 2 ^ sub ≤ 2 ^ 7 := Nat.pow_le_pow_right (by decide) hsub.2
          _ = 128 := by decide
      have hpos := Nat.two_pow_pos sub
      have hlow : b.key % 2 ^ 8 < 256 := Nat.mod_lt _ (by decide)
      generalize b.key % 2 ^ 8 = low at hlow ⊢
      refine ⟨fits_replicateEntry ?_ (fits_symbol (by omega) hp3 hn), ?_, ?_, ?_⟩
      · intro i e he
        rw [List.getElem?_set] at he
        split at he
        · subst ‹low = i›
          split at he <;> cases he
          right
          rw [entryLen_pack (by omega) (by omega), entryValue_pack (by omega) (by omega)]
          omega
        · rw [List.getElem?_append] at he
          split at he
          · exact h.entries i e he
          · obtain ⟨-, rfl⟩ := List.mem_replicate.mp (List.mem_of_getElem? he)
            left
            exact ⟨show 0 < n by omega, by decide⟩
      · simp [length_replicateEntry]; omega
      · simp [length_replicateEntry]; omega
      · simp [length_replicateEntry]; omega

theorem fits_addSymbols {n : Nat} (ps : List (Nat × Nat)) (hps : ∀ p ∈ ps, 1 ≤ p.1 ∧ p.1 ≤ 15 ∧ p.2 < n) (hn : n ≤ 65536)
    {k : Nat} {b : Builder} (h : BuilderFits n k b) (hk : k + ps.length ≤ 272) :
    EntriesFit n (ps.foldl (addSymbol 8) b).entries := by
  induction ps generalizing k b with
  | nil => exact h.entries
  | cons p ps ih =>
    simp only [List.length_cons] at hk
    exact ih (fun q hq => hps q (List.mem_cons_of_mem p hq)) (fits_addSymbol h (hps p (List.mem_cons_self ..)) hn (by omega))
      (by omega)

theorem fits_replicate {n : Nat} {e : Entry} (m : Nat) (h : ∀ i, EntryFits n i e) : EntriesFit n (List.replicate m e) := by
  intro i x hx
  obtain ⟨-, rfl⟩ := List.mem_replicate.mp (List.mem_of_getElem? hx)
  exact h i

/-- A table over an alphabet of at most 272 symbols answers no symbol beyond it, whatever its lengths are (R185, R190). -/
theorem build_below {L : List Nat} (h1 : 1 ≤ L.length) (h2 : L.length ≤ 272) : (HuffmanTable.build L 8).Below L.length := by
  have hf : EntriesFit L.length (HuffmanTable.build L 8).entries := by
    show EntriesFit L.length (buildEntries L 8)
    have hm : ∀ p ∈ sortedSymbols L, 1 ≤ p.1 ∧ p.1 ≤ 15 ∧ p.2 < L.length := fun p hp => mem_sortedSymbols hp
    have hz : ∀ i, EntryFits L.length i 0 := fun i => .inl ⟨by show 0 < L.length; omega, by decide⟩
    have hlen := length_sortedSymbols L
    unfold buildEntries
    split
    · rename_i len s heq
      exact fits_replicate _ (fits_symbol (by decide) (hm (len, s) (by rw [heq]; exact List.mem_cons_self ..)).2.2 (by omega))
    · refine fits_addSymbols (k := 0) _ hm (by omega) ⟨fits_replicate _ hz, ?_, ?_, ?_⟩ (by omega) <;>
        simp only [List.length_replicate] <;> decide
  intro v sym bits h
  unfold HuffmanTable.lookup at h
  split at h
  · cases h
  · rename_i e he
    have hi : v % 2 ^ (HuffmanTable.build L 8).rootBits < 256 := Nat.mod_lt v (y := 256) (by decide)
    have h8 : (HuffmanTable.build L 8).rootBits = 8 := rfl
    split at h
    · cases h
      rcases hf _ _ he with h | h
      · exact h.1
      · omega
    · split at h
      · cases h
      · rename_i e2 he2
        cases h
        rcases hf _ _ he with h | h
        · omega
        · rcases hf _ _ he2 with h' | h'
          · exact h'.1
          · exact absurd (Nat.lt_of_le_of_lt (Nat.le_trans h.2.2 (Nat.le_add_right _ _)) h'.1) (Nat.lt_irrefl 256)

end Sys2Proof.Laws
end

