-- ==== Sys2Proof/Laws/Ranges.lean ====
section
/-! SUPPORT. That each kind of step keeps `RangeInv`, the ranges of R50. The inverse move-to-front transform's own bound
(R255) is a premise where it is used. -/

namespace Sys2Proof.Laws

open Sys2Proof.Machine

set_option linter.unusedSimpArgs false

/-! ## Registers -/

/-- The registers of the compressed header that `Ranges` speaks of are the same. -/
structure SameHeader (a b : DecoderState) : Prop where
  numBlockTypes : b.numBlockTypes = a.numBlockTypes
  blockType : b.blockType = a.blockType
  prevBlockType : b.prevBlockType = a.prevBlockType
  contextMapL : b.contextMapL = a.contextMapL
  contextMapD : b.contextMapD = a.contextMapD
  numLiteralTrees : b.numLiteralTrees = a.numLiteralTrees
  numDistTrees : b.numDistTrees = a.numDistTrees
  blockTypeTree : b.blockTypeTree = a.blockTypeTree
  hphase : b.hphase = a.hphase
  hsub : b.hsub = a.hsub
  pcActive : b.pcActive = a.pcActive
  pcAlphaLimit : b.pcAlphaLimit = a.pcAlphaLimit
  cmNumTrees : b.cmNumTrees = a.cmNumTrees
  cmRleMax : b.cmRleMax = a.cmRleMax
  cmIdx : b.cmIdx = a.cmIdx
  cmSize : b.cmSize = a.cmSize
  cmTree : b.cmTree = a.cmTree
  cmMap : b.cmMap = a.cmMap

/-- A step that leaves the header's registers alone answers for the copy counter, the control state and the field only. -/
theorem ranges_of_same {a b : DecoderState} (h : Ranges a) (k : SameHeader a b)
    (counter : b.field ≠ .copyLen → b.j ≤ max b.insertLength b.copyLength)
    (copying : b.decodingState = .copyLoop → b.j ≤ b.copyLength)
    (tables : b.decodingState = .mainLoop ∨ b.decodingState = .insertLoop ∨ b.decodingState = .copyLoop ∨
      b.decodingState = .useDictionary ∨ b.decodingState = .compoundDictionaryCopy → a.hphase = .finalize)
    (varlen : ∀ v, b.field = .varlenResult v → 1 ≤ v ∧ v ≤ 256)
    (switching : ∀ t, b.field = .blockCount t → t < a.numBlockTypes.get b.cat + 2) : Ranges b := by
  obtain ⟨k1, k2, k3, k4, k5, k6, k7, k8, k9, k10, k11, k12, k13, k14, k15, k16, k17, k18⟩ := k
  have hm : b.mapSize = a.mapSize := by unfold DecoderState.mapSize; rw [k9, k1]
  refine ⟨counter, ?_, ?_, ?_, copying, ?_, ?_, ?_, varlen, ?_, ?_, ?_⟩
  · rw [k1, k2, k3]; exact h.types
  · rw [k9, k1, k4, k6]; exact h.literalMap
  · rw [k9, k1, k5, k7]; exact h.distanceMap
  · rw [k9]; exact tables
  · unfold DecoderState.TypesRead; rw [k9, k10, k1, k8]; exact h.typeTrees
  · rw [k9, k10, k11, k12, k1]; exact h.typeCode
  · rw [k1]; exact switching
  · rw [k9, k10, k11]; exact h.mapCode
  · rw [k9, k10]
    intro h1 h2
    obtain ⟨m1, m2, m3, m4, m5, m6, m7⟩ := h.map h1 h2
    constructor
    · rw [k13]; exact m1
    · rw [k13]; exact m2
    · rw [k16, hm]; exact m3
    · rw [k13, k15, k16, k18]; exact m4
    · rw [k10, k12, k13, k14]; exact m5
    · rw [k10, k13, k14, k17]; exact m6
    · rw [k10, k15, k16]; exact m7

theorem ranges_reset : Ranges DecoderState.reset := by
  refine ⟨by decide, ?_, by decide, by decide, by decide, by decide, ?_, ?_, ?_, ?_, by decide, ?_⟩
  · intro k; cases k <;> constructor <;> decide
  · intro k _ h; cases k <;> exact absurd h (by decide)
  · intro k _ h; exact absurd h (by decide)
  · intro v h; exact absurd h (by simp [DecoderState.reset])
  · intro v h; exact absurd h (by simp [DecoderState.reset])
  · intro h; exact absurd h (by decide)

/-- An error takes the registers back and leaves the header as it was. -/
theorem ranges_error {st : DecoderState} (h : Ranges st) (hf : st.field = .start) (k : ErrorKind) :
    Ranges { st with runningState := .error k, field := .start } := by
  refine ranges_of_same h (by constructor <;> rfl) (fun _ => h.counter (by simp [hf])) ?_ ?_ ?_ ?_ <;>
    simp [DecoderState.decodingState]

/-! ## The machine -/

theorem ranges_base {s : State} (h : RangeInv s) : Ranges s.base := by
  unfold State.base
  cases hc : s.ckpt with
  | none => exact h.1
  | some c => exact h.2 c hc

theorem range_commit {s : State} (h : RangeInv s) : RangeInv s.commit := by
  refine ⟨by simpa using h.1, fun c hc => ?_⟩
  rw [commit_ckpt] at hc
  split at hc
  · cases hc
  · exact h.2 c hc

theorem range_raise {s : State} (hi : BaseInv s) (h : RangeInv s) (k : ErrorKind) : RangeInv (s.raise k) :=
  ⟨ranges_error (ranges_base h) (inv_base hi).2.2.2.2.1 k, fun c hc => nomatch hc⟩

theorem range_suspend {s : State} (hi : BaseInv s) (h : RangeInv s) : RangeInv s.suspend := by
  have hf := (inv_base hi).2.2.2.2.1
  refine ⟨?_, fun c hc => nomatch hc⟩
  have e : s.suspend.st = s.base := by rw [suspend_st, ← hf]
  rw [e]; exact ranges_base h

theorem range_pull {s : State} (hi : BaseInv s) (h : RangeInv s) : RangeInv s.pull := by
  unfold State.pull
  split
  · exact range_suspend hi h
  · exact range_suspend (s := { s with source := _ }) (inv_source hi _ s.srcEOF s.srcFail) h
  · exact h
  · exact range_raise (s := { s with srcFail := true, source := _ }) (inv_source hi _ s.srcEOF true) h _
  · exact range_suspend (s := { s with source := _ }) (inv_source hi _ s.srcEOF s.srcFail) h
  · exact h

/-- The registers after a row, the element step complete or not. -/
theorem range_row {s : State} (h : RangeInv s) (n : Nat) {b : DecoderState} (hb : Ranges b) :
    RangeInv ({ s.advance n with st := b } : State).commit := by
  refine range_commit ⟨hb, fun c hc => ?_⟩
  obtain rfl : s.base = c := by simpa using hc
  exact ranges_base h

theorem range_advance_raise {s : State} (hi : BaseInv s) (h : RangeInv s) (n k) :
    RangeInv ((s.advance n).raise k).commit := by
  rw [advance_raise]; exact range_commit (range_raise hi h k)

/-! ## The compressed header -/

theorem types_set {st : DecoderState} {k : Cat} {num cur prev : Nat}
    (h : ∀ k, TypesInRange (st.numBlockTypes.get k) (st.blockType.get k) (st.prevBlockType.get k))
    (hn : TypesInRange num cur prev) (j : Cat) :
    TypesInRange ((st.numBlockTypes.set k num).get j) ((st.blockType.set k cur).get j) ((st.prevBlockType.set k prev).get j) := by
  have := h j
  cases k <;> cases j <;> first | exact hn | exact this

/-- The next phase begins: its first step reads a partition's count, a field, a map's count or a tree's code. -/
theorem ranges_enterPhase {st : DecoderState} {p : HPhase} (h : Ranges st) (hr : st.runningState = .metablockHuffmanData)
    (hf : st.field = .start) (hj : st.j ≤ max st.insertLength st.copyLength)
    (hl : 5 < p.number → ∀ i, i < 64 * st.numBlockTypes.L → (st.contextMapL.read i).toNat < st.numLiteralTrees)
    (hd : 6 < p.number → ∀ i, i < 4 * st.numBlockTypes.D → (st.contextMapD.read i).toNat < st.numDistTrees)
    (ht : ∀ k : Cat, k.phase < p.number → 2 ≤ st.numBlockTypes.get k →
      (st.blockTypeTree.get k).Below (st.numBlockTypes.get k + 2)) : Ranges (st.enterPhase p) := by
  have hds : (st.enterPhase p).decodingState = .metablockHuffmanData := by simp [DecoderState.decodingState, hr]
  constructor
  · intro; simpa using hj
  · simpa using h.types
  · simpa using hl
  · simpa using hd
  · intro hh; rw [hds] at hh; cases hh
  · intro hh; rw [hds] at hh; simp at hh
  · intro k hk h2
    simp only [enterPhase_numBlockTypes, enterPhase_blockTypeTree] at h2 ⊢
    rcases hk with hk | ⟨-, hk⟩
    · exact ht k (by simpa using hk) h2
    · simp at hk
  · intro k hk hp
    exfalso
    cases p <;> cases k <;> simp [HPhase.number, Cat.phase] at hk <;> simp [DecoderState.enterPhase] at hp
  · intro v hv; simp [hf] at hv
  · intro v hv; simp [hf] at hv
  · intro hk hp
    exfalso
    cases p <;> simp at hk <;> simp [DecoderState.enterPhase] at hp
  · intro _ h1; simp at h1

/-- The trees a later phase relies on are those of the phase before it. -/
theorem typeTrees_of {st : DecoderState} (h : Ranges st) {k : Cat} (hk : k.phase < st.hphase.number)
    (h2 : 2 ≤ st.numBlockTypes.get k) : (st.blockTypeTree.get k).Below (st.numBlockTypes.get k + 2) :=
  h.typeTrees k (.inl hk) h2

/-- What the compressed header's elements find: `Ranges` where no command is in progress. -/
structure InHeader (st : DecoderState) : Prop where
  ranges : Ranges st
  run : st.runningState = .metablockHuffmanData
  counter : st.j ≤ max st.insertLength st.copyLength

theorem InHeader.decoding {st : DecoderState} (h : InHeader st) : st.decodingState = .metablockHuffmanData := by
  simp [DecoderState.decodingState, h.run]

/-- An element that writes none of the header's registers, or only working ones. -/
theorem ranges_still {a b : DecoderState} (h : InHeader a) (k : SameHeader a b) (hr : b.runningState = a.runningState)
    (hj : b.j = a.j) (hi : b.insertLength = a.insertLength) (hc : b.copyLength = a.copyLength)
    (varlen : ∀ v, b.field = .varlenResult v → 1 ≤ v ∧ v ≤ 256 := by intro _ h; cases h)
    (switching : ∀ t, b.field ≠ .blockCount t := by intro _ h; cases h) : Ranges b := by
  have hd : b.decodingState = .metablockHuffmanData := by simp [DecoderState.decodingState, hr, h.run]
  refine ranges_of_same h.ranges k ?_ ?_ ?_ varlen (fun t ht => absurd ht (switching t))
  · intro; rw [hj, hi, hc]; exact h.counter
  · intro hh; rw [hd] at hh; cases hh
  · intro hh; rw [hd] at hh; simp at hh

theorem inHeader_still {a b : DecoderState} (h : InHeader a) (k : SameHeader a b) (hr : b.runningState = a.runningState)
    (hj : b.j = a.j) (hi : b.insertLength = a.insertLength) (hc : b.copyLength = a.copyLength)
    (hf : b.field = .start) : InHeader b :=
  ⟨ranges_still h k hr hj hi hc (by simp [hf]) (by simp [hf]), hr.trans h.run, by rw [hj, hi, hc]; exact h.counter⟩

/-- A block partition is over (R238). -/
theorem ranges_afterPartition {st : DecoderState} {k : Cat} (h : InHeader st) (hf : st.field = .start)
    (hk : st.hphase.number = k.phase)
    (ht : 2 ≤ st.numBlockTypes.get k → (st.blockTypeTree.get k).Below (st.numBlockTypes.get k + 2)) :
    Ranges (st.afterPartition k) := by
  unfold DecoderState.afterPartition
  cases k <;> refine ranges_enterPhase h.ranges h.run hf h.counter (fun h5 => absurd h5 (by decide))
    (fun h6 => absurd h6 (by decide)) ?_ <;> intro k' hk' h2
  · cases k' <;> first | exact ht h2 | exact absurd hk' (by decide)
  · cases k'
    · exact typeTrees_of h.ranges (by rw [hk]; decide) h2
    · exact ht h2
    · exact absurd hk' (by decide)
  · cases k'
    · exact typeTrees_of h.ranges (by rw [hk]; decide) h2
    · exact typeTrees_of h.ranges (by rw [hk]; decide) h2
    · exact ht h2

/-- A context map is complete (R258). -/
theorem ranges_endMap {st : DecoderState} (h : InHeader st) (hf : st.field = .start)
    (hp : st.hphase = .cmapL ∨ st.hphase = .cmapD) (hL : st.contextMapL.wf) (hD : st.contextMapD.wf)
    (hs : st.cmSize = st.mapSize) (hm : ∀ i, i < st.cmSize → (st.cmMap.read i).toNat < st.cmNumTrees) :
    Ranges st.endMap := by
  have hget : ∀ i, i < st.cmSize → (st.cmMap.toBytes st.cmSize).getD i 0 = st.cmMap.read i := by
    intro i hi
    simp [Memory.toBytes, List.getD_eq_getElem?_getD, hi]
  rcases hp with hp | hp
  · have e : st.endMap = ({ st with
        numLiteralTrees := st.cmNumTrees
        contextMapL := st.contextMapL.writeAll 0 (st.cmMap.toBytes st.cmSize) } : DecoderState).enterPhase .cmapD := by
      unfold DecoderState.endMap; rw [hp]
    have hsz : st.mapSize = 64 * st.numBlockTypes.L := by unfold DecoderState.mapSize; rw [hp]
    have hn : st.hphase.number = 5 := by rw [hp]; rfl
    have hr : Ranges { st with
        numLiteralTrees := st.cmNumTrees
        contextMapL := st.contextMapL.writeAll 0 (st.cmMap.toBytes st.cmSize) } :=
      { h.ranges with
        literalMap := fun h5 => absurd (hn ▸ h5) (by decide)
        counter := h.ranges.counter, copying := h.ranges.copying, tables := h.ranges.tables
        typeTrees := h.ranges.typeTrees, typeCode := h.ranges.typeCode
        switching := h.ranges.switching, mapCode := h.ranges.mapCode
        map := fun h1 h2 => by obtain ⟨⟩ := h.ranges.map h1 h2; constructor <;> assumption }
    rw [e]
    refine ranges_enterPhase hr h.run hf h.counter (fun _ i hi => ?_) (fun h6 => absurd h6 (by decide)) (fun k hk h2 => ?_)
    · show ((st.contextMapL.writeAll 0 (st.cmMap.toBytes st.cmSize)).read i).toNat < st.cmNumTrees
      have hi' : i < st.cmSize := by rw [hs, hsz]; exact hi
      rw [Memory.read_writeAll hL, if_pos (by simpa using hi'), Nat.sub_zero, hget i hi']
      exact hm i hi'
    · exact typeTrees_of h.ranges (by rw [hn]; cases k <;> decide) h2
  · have e : st.endMap = ({ st with
        numDistTrees := st.cmNumTrees
        contextMapD := st.contextMapD.writeAll 0 (st.cmMap.toBytes st.cmSize) } : DecoderState).enterPhase .treesL := by
      unfold DecoderState.endMap; rw [hp]
    have hsz : st.mapSize = 4 * st.numBlockTypes.D := by unfold DecoderState.mapSize; rw [hp]
    have hn : st.hphase.number = 6 := by rw [hp]; rfl
    have hr : Ranges { st with
        numDistTrees := st.cmNumTrees
        contextMapD := st.contextMapD.writeAll 0 (st.cmMap.toBytes st.cmSize) } :=
      { h.ranges with
        distanceMap := fun h6 => absurd (hn ▸ h6) (by decide)
        counter := h.ranges.counter, copying := h.ranges.copying, tables := h.ranges.tables
        typeTrees := h.ranges.typeTrees, typeCode := h.ranges.typeCode
        switching := h.ranges.switching, mapCode := h.ranges.mapCode
        map := fun h1 h2 => by obtain ⟨⟩ := h.ranges.map h1 h2; constructor <;> assumption }
    rw [e]
    refine ranges_enterPhase hr h.run hf h.counter (fun _ => h.ranges.literalMap (by rw [hn]; decide)) (fun _ i hi => ?_)
      (fun k hk h2 => ?_)
    · show ((st.contextMapD.writeAll 0 (st.cmMap.toBytes st.cmSize)).read i).toNat < st.cmNumTrees
      have hi' : i < st.cmSize := by rw [hs, hsz]; exact hi
      rw [Memory.read_writeAll hD, if_pos (by simpa using hi'), Nat.sub_zero, hget i hi']
      exact hm i hi'
    · exact typeTrees_of h.ranges (by rw [hn]; cases k <;> decide) h2

/-- A finished code goes to its phase (R238, R253, R260); a code over a small alphabet has no symbol beyond it. -/
theorem ranges_deliver {st : DecoderState} {T : HuffmanTable} (h : InHeader st) (hf : st.field = .start)
    (ha : st.pcActive = true) (hT : 1 ≤ st.pcAlphaLimit → st.pcAlphaLimit ≤ 272 → T.Below st.pcAlphaLimit) :
    Ranges (st.deliver T) := by
  have hpart : ∀ k : Cat, st.hphase.number = k.phase → Ranges (st.deliverPartition k T) := by
    intro k hk
    have hlt : st.hphase.number < 3 := by rw [hk]; cases k <;> decide
    have hnm : ¬ (st.hphase = .cmapL ∨ st.hphase = .cmapD) := by
      rintro (e | e) <;> rw [e] at hlt <;> exact absurd hlt (by decide)
    unfold DecoderState.deliverPartition
    split
    · rename_i h1
      refine ⟨fun _ => h.counter, h.ranges.types, h.ranges.literalMap, h.ranges.distanceMap, ?_, ?_, ?_, ?_, ?_, ?_, ?_, ?_⟩
      · exact h.ranges.copying
      · exact h.ranges.tables
      · intro j hj h2
        have hT' : (st.blockTypeTree.set k T).get k = T := by cases k <;> rfl
        rcases hj with hj | ⟨hj, -⟩
        · have hne : (st.blockTypeTree.set k T).get j = st.blockTypeTree.get j := by
            have hj' : j.phase < k.phase := by rw [← hk]; exact hj
            cases k <;> cases j <;> first | rfl | exact absurd hj' (by decide)
          show ((st.blockTypeTree.set k T).get j).Below _
          rw [hne]; exact h.ranges.typeTrees j (.inl hj) h2
        · obtain rfl : j = k := by
            have : j.phase = k.phase := by rw [← hk]; exact hj.symm
            cases k <;> cases j <;> first | rfl | exact absurd this (by decide)
          show ((st.blockTypeTree.set j T).get j).Below _
          rw [hT']
          rcases h.ranges.typeCode j hk ha with h3 | ⟨-, h3⟩
          · omega
          · have := (h.ranges.types j).limit
            rw [h3] at hT
            exact hT (by omega) (by omega)
      · intro j _ _; exact .inl (Nat.le_refl 2)
      · intro v hv; exact absurd hv (by simp [hf])
      · intro v hv; exact absurd hv (by simp [hf])
      · intro hh; exact absurd hh hnm
      · intro hh; exact absurd hh hnm
    · rename_i h1
      refine ⟨fun _ => h.counter, h.ranges.types, h.ranges.literalMap, h.ranges.distanceMap, ?_, ?_, ?_, ?_, ?_, ?_, ?_, ?_⟩
      · exact h.ranges.copying
      · exact h.ranges.tables
      · intro j hj h2
        rcases hj with hj | ⟨hj, -⟩
        · exact h.ranges.typeTrees j (.inl hj) h2
        · rcases h.ranges.typeCode j hj ha with h3 | ⟨h3, -⟩
          · exact h.ranges.typeTrees j (.inr ⟨hj, h3⟩) h2
          · exact absurd h3 h1
      · intro j _ hh; cases hh
      · intro v hv; exact absurd hv (by simp [hf])
      · intro v hv; exact absurd hv (by simp [hf])
      · intro hh; exact absurd hh hnm
      · intro hh; exact absurd hh hnm
  have hmap : (st.hphase = .cmapL ∨ st.hphase = .cmapD) → Ranges { st with cmTree := T, hsub := 3, pcActive := false } := by
    intro hp
    have h2 := h.ranges.mapCode hp ha
    obtain ⟨m1, m2, m3, m4, m5, m6, m7⟩ := h.ranges.map hp (by omega)
    obtain ⟨hr, hl⟩ := m5 h2
    have hn : 3 ≤ st.hphase.number := by rcases hp with e | e <;> rw [e] <;> decide
    refine ⟨fun _ => h.counter, h.ranges.types, h.ranges.literalMap, h.ranges.distanceMap, ?_, ?_, ?_, ?_, ?_, ?_, ?_, ?_⟩
    · exact h.ranges.copying
    · exact h.ranges.tables
    · intro j hj h2
      refine h.ranges.typeTrees j (.inl ?_) h2
      cases j <;> simp only [Cat.phase] <;> omega
    · intro j _ hh; cases hh
    · intro v hv; exact absurd hv (by simp [hf])
    · intro v hv; exact absurd hv (by simp [hf])
    · intro _ hh; cases hh
    · intro _ _
      refine ⟨m1, m2, m3, m4, fun hh => absurd (show 3 = 2 from hh) (by decide), fun _ => ?_,
        fun hh => absurd (show 3 = 4 from hh) (by decide)⟩
      show T.Below (st.cmNumTrees + st.cmRleMax)
      rw [← hl]; exact hT (by omega) (by omega)
  have htree : ∀ b : DecoderState, SameHeader st { b with pcAlphaLimit := st.pcAlphaLimit } → b.runningState = st.runningState →
      b.j = st.j → b.insertLength = st.insertLength → b.copyLength = st.copyLength → b.field = .start →
      7 ≤ st.hphase.number → Ranges b := by
    intro b k hr hj hi hc hfb hn
    have hb := ranges_still (b := { b with pcAlphaLimit := st.pcAlphaLimit }) h k hr hj hi hc (fun v hv => by simp [hfb] at hv)
      (fun v hv => by simp [hfb] at hv)
    have hp : b.hphase = st.hphase := k.hphase
    have hnm : ¬ (b.hphase = .cmapL ∨ b.hphase = .cmapD) := by
      rw [hp]; rintro (e | e) <;> rw [e] at hn <;> exact absurd hn (by decide)
    exact ⟨hb.counter, hb.types, hb.literalMap, hb.distanceMap, hb.copying, hb.tables, hb.typeTrees,
      fun k hk _ => absurd (hp ▸ hk) (by have : k.phase ≤ 2 := by cases k <;> decide
                                         omega), hb.varlen, hb.switching, fun hh => absurd hh hnm, fun hh => absurd hh hnm⟩
  have hnext : ∀ (b : DecoderState) (p : HPhase), Ranges b → b.runningState = st.runningState → b.j = st.j →
      b.insertLength = st.insertLength → b.copyLength = st.copyLength → b.field = .start → 7 ≤ b.hphase.number →
      Ranges (b.enterPhase p) := by
    intro b p hb hr hj hi hc hfb hn
    refine ranges_enterPhase hb (hr.trans h.run) hfb (by rw [hj, hi, hc]; exact h.counter) (fun _ => hb.literalMap (by omega))
      (fun _ => hb.distanceMap (by omega)) (fun k _ h2 => typeTrees_of hb ?_ h2)
    cases k <;> simp only [Cat.phase] <;> omega
  have hoff : ∀ p : HPhase, st.hphase = p → p = .distParams ∨ p = .ctxModes ∨ p = .finalize → Ranges { st with pcActive := false } := by
    intro p hp hpp
    have hnm : ¬ (st.hphase = .cmapL ∨ st.hphase = .cmapD) := by
      rw [hp]; rcases hpp with rfl | rfl | rfl <;> simp
    exact { h.ranges with
      typeCode := fun k _ hh => nomatch hh
      mapCode := fun hh => absurd hh hnm, map := fun hh => absurd hh hnm
      counter := h.ranges.counter, copying := h.ranges.copying, tables := h.ranges.tables
      typeTrees := h.ranges.typeTrees, switching := h.ranges.switching }
  unfold DecoderState.deliver
  split <;> rename_i hp
  · exact hpart .L (by rw [hp]; rfl)
  · exact hpart .I (by rw [hp]; rfl)
  · exact hpart .D (by rw [hp]; rfl)
  · exact hmap (.inl hp)
  · exact hmap (.inr hp)
  · have hn : 7 ≤ st.hphase.number := by rw [hp]; decide
    simp only []
    split
    · exact htree _ (by constructor <;> first | rfl | exact ha.symm) rfl rfl rfl rfl hf hn
    · exact hnext _ _ (htree { st with literalTrees := st.literalTrees ++ [T], hidx := st.hidx + 1 } (by constructor <;> rfl) rfl
        rfl rfl rfl hf hn) rfl rfl rfl rfl hf hn
  · have hn : 7 ≤ st.hphase.number := by rw [hp]; decide
    simp only []
    split
    · exact htree _ (by constructor <;> first | rfl | exact ha.symm) rfl rfl rfl rfl hf hn
    · exact hnext _ _ (htree { st with commandTrees := st.commandTrees ++ [T], hidx := st.hidx + 1 } (by constructor <;> rfl) rfl
        rfl rfl rfl hf hn) rfl rfl rfl rfl hf hn
  · have hn : 7 ≤ st.hphase.number := by rw [hp]; decide
    simp only []
    split
    · exact htree _ (by constructor <;> first | rfl | exact ha.symm) rfl rfl rfl rfl hf hn
    · exact hnext _ _ (htree { st with distanceTrees := st.distanceTrees ++ [T], hidx := st.hidx + 1 } (by constructor <;> rfl) rfl
        rfl rfl rfl hf hn) rfl rfl rfl rfl hf hn
  · exact hoff _ hp (.inl rfl)
  · exact hoff _ hp (.inr (.inl rfl))
  · exact hoff _ hp (.inr (.inr rfl))

theorem length_simpleLengths (symbols : List Nat) (a : Bool) (limit : Nat) :
    (simpleLengths symbols a limit).length = limit := by
  have : ∀ (ps : List (Nat × Nat)) (L : List Nat), (ps.foldl (fun L p => L.set p.1 p.2) L).length = L.length := by
    intro ps
    induction ps with
    | nil => intro L; rfl
    | cons p ps ih => intro L; rw [List.foldl_cons, ih, List.length_set]
  unfold simpleLengths
  rw [this, List.length_replicate]

/-- A code of `limit` lengths, over a small alphabet, has no symbol beyond it. -/
theorem build_below_limit {L : List Nat} {limit : Nat} (h : L.length = limit) (h1 : 1 ≤ limit) (h2 : limit ≤ 272) :
    (HuffmanTable.build L Config.huffRootBits).Below limit := by
  subst h; exact build_below h1 h2

/-- The end of a simple form (R194). -/
theorem range_endSimple {s : State} (hi : BaseInv s) (h : RangeInv s) {n : Nat} (hh : InHeader (s.advance n).st)
    (ha : s.st.pcActive = true) (symbols : List Nat) (a : Bool) :
    RangeInv ((s.advance n).endSimple symbols a).commit := by
  unfold State.endSimple
  split
  · exact range_advance_raise hi h n _
  · split
    · exact range_advance_raise hi h n _
    · refine range_row h n (ranges_deliver ?_ rfl ha ?_)
      · exact inHeader_still hh (by constructor <;> rfl) rfl rfl rfl rfl rfl
      · exact fun h1 h2 => build_below_limit (length_simpleLengths ..) h1 h2

/-- After a code-length symbol (R198, R200). -/
theorem range_symbolLengthDone {s : State} (hi : BaseInv s) (h : RangeInv s) {n : Nat} {st : DecoderState} (hh : InHeader st)
    (hf : st.field = .start) (ha : st.pcActive = true) : RangeInv ((s.advance n).symbolLengthDone st).commit := by
  unfold State.symbolLengthDone
  split
  · exact range_row h n hh.ranges
  · split
    · exact range_advance_raise hi h n _
    · exact range_row h n (ranges_deliver hh hf ha fun h1 h2 => build_below_limit (by simp) h1 h2)

theorem range_repeatLength {s : State} (hi : BaseInv s) (h : RangeInv s) {n : Nat} (hh : InHeader (s.advance n).st)
    (ha : s.st.pcActive = true) (l xb x : Nat) : RangeInv ((s.advance n).repeatLength l xb x).commit := by
  unfold State.repeatLength
  simp only []
  generalize (if (s.advance n).st.repeatCodeLen = l then (s.advance n).st.repeatCount else 0) = old
  generalize (if old > 0 then (old - 2) <<< xb else 0) = tt
  split
  · exact range_advance_raise hi h n _
  · exact range_symbolLengthDone hi h (inHeader_still hh (by constructor <;> rfl) rfl rfl rfl rfl rfl) rfl ha

/-- A context map's entries so far, `m` more of them now below the number of trees (R254). -/
theorem ranges_mapDone {st : DecoderState} {mem : Memory} {m : Nat} (h : InHeader st) (h3 : st.hsub = 3)
    (hp : st.hphase = .cmapL ∨ st.hphase = .cmapD)
    (hm : ∀ i, i < st.cmIdx + m → i < st.cmSize → (mem.read i).toNat < st.cmNumTrees) :
    Ranges ((st.setMap mem).mapDone m) := by
  obtain ⟨m1, m2, m3, m4, m5, m6, m7⟩ := h.ranges.map hp (by omega)
  have hn : 3 ≤ st.hphase.number := by rcases hp with e | e <;> rw [e] <;> decide
  unfold DecoderState.mapDone
  simp only []
  split
  · refine ⟨fun _ => h.counter, h.ranges.types, h.ranges.literalMap, h.ranges.distanceMap, h.ranges.copying, h.ranges.tables,
      h.ranges.typeTrees, h.ranges.typeCode, ?_, ?_, h.ranges.mapCode, fun _ _ => ⟨m1, m2, m3, hm, m5, m6, ?_⟩⟩
    · intro v hv; cases hv
    · intro v hv; cases hv
    · intro h4
      have h4' : st.hsub = 4 := h4
      omega
  · rename_i hge
    refine ⟨fun _ => h.counter, h.ranges.types, h.ranges.literalMap, h.ranges.distanceMap, h.ranges.copying, h.ranges.tables,
      ?_, ?_, ?_, ?_, ?_, fun _ _ => ⟨m1, m2, m3, hm, fun hh => absurd (show 4 = 2 from hh) (by decide),
        fun hh => absurd (show 4 = 3 from hh) (by decide), fun _ => Nat.le_of_not_lt hge⟩⟩
    · intro k _ h2
      refine typeTrees_of h.ranges ?_ h2
      cases k <;> simp only [Cat.phase] <;> omega
    · intro k _ _; exact .inl (show 2 ≤ 4 by decide)
    · intro v hv; cases hv
    · intro v hv; cases hv
    · intro hp' ha
      have := h.ranges.mapCode hp' ha
      omega

/-- The largest run length of a map is known, and the map's code is next (R252, R253). -/
theorem ranges_setRleMax {st : DecoderState} {m : Nat} (h : InHeader st) (h1 : st.hsub = 1)
    (hp : st.hphase = .cmapL ∨ st.hphase = .cmapD) (hm : m ≤ 16) : Ranges (st.setRleMax m) := by
  obtain ⟨m1, m2, m3, m4, m5, m6, m7⟩ := h.ranges.map hp (by omega)
  have hn : 3 ≤ st.hphase.number := by rcases hp with e | e <;> rw [e] <;> decide
  unfold DecoderState.setRleMax
  refine ⟨fun _ => h.counter, h.ranges.types, h.ranges.literalMap, h.ranges.distanceMap, h.ranges.copying, h.ranges.tables,
    ?_, ?_, fun v hv => (nomatch hv), fun v hv => (nomatch hv), fun _ _ => rfl, fun _ _ => ⟨m1, m2, m3, m4, fun _ => ⟨hm, rfl⟩,
      fun hh => absurd (show 2 = 3 from hh) (by decide), fun hh => absurd (show 2 = 4 from hh) (by decide)⟩⟩
  · intro k _ h2
    refine typeTrees_of h.ranges ?_ h2
    cases k <;> simp only [Cat.phase] <;> omega
  · intro k _ _; exact .inl (Nat.le_refl 2)

/-- The transformed map's entries are below the number of trees, by the transform's bound (R255). -/
theorem mtf_read {n size : Nat} {m : Memory}
    (hmtf : ∀ (k : Nat) (map : List Byte), k ≤ 256 → (∀ b ∈ map, b.toNat < k) →
      (inverseMoveToFront map).length = map.length ∧ ∀ b ∈ inverseMoveToFront map, b.toNat < k)
    (hw : m.wf) (hn : n ≤ 256) (h : ∀ i, i < size → (m.read i).toNat < n) (i : Nat) (hi : i < size) :
    ((m.writeAll 0 (inverseMoveToFront (m.toBytes size))).read i).toNat < n := by
  have hb : ∀ b ∈ m.toBytes size, b.toNat < n := by
    intro b hb
    obtain ⟨k, hk, rfl⟩ := List.mem_map.mp hb
    exact h k (List.mem_range.mp hk)
  obtain ⟨hl, hlt⟩ := hmtf n _ hn hb
  have hi' : i < (inverseMoveToFront (m.toBytes size)).length := by rw [hl]; simpa using hi
  rw [Memory.read_writeAll hw, if_pos (by omega), Nat.sub_zero, List.getD_eq_getElem?_getD, List.getElem?_eq_getElem hi']
  exact hlt _ (List.getElem_mem hi')

/-- The compressed header's elements. -/
theorem range_huffman {s u : State} {c n} (hb : BaseInv s) (h : RangeInv s)
    (hmtf : ∀ (k : Nat) (map : List Byte), k ≤ 256 → (∀ b ∈ map, b.toNat < k) →
      (inverseMoveToFront map).length = map.length ∧ ∀ b ∈ inverseMoveToFront map, b.toNat < k)
    (hr : s.st.runningState = .metablockHuffmanData) (at_ : At s.st c) (he : Effect (s.advance n) c u) : RangeInv u.commit := by
  have hnc : s.st.field ≠ .copyLen := by
    intro hf
    have := hb.regs.field
    unfold DecoderState.FieldFits at this
    rw [hf] at this
    rw [hr] at this
    cases this
  have h0 : InHeader s.st := ⟨h.1, hr, h.1.counter hnc⟩
  have hnb : ∀ t, s.st.field ≠ .blockCount t := by
    intro t hf
    have := hb.regs.field
    unfold DecoderState.FieldFits at this
    rw [hf, hr] at this
    rcases this with h | h <;> cases h
  have hh : InHeader (s.advance n).st := by
    refine ⟨ranges_still h0 (by constructor <;> rfl) rfl rfl rfl rfl h.1.varlen hnb, hr, h0.counter⟩
  cases he <;> simp only [At, hr, reduceCtorEq, false_and, and_false, or_false, false_or] at at_
  case varlen8 v hv =>
    refine range_row h n (b := ((s.advance n).varlen8 v).st) (ranges_still hh (by constructor <;> rfl) rfl rfl rfl rfl ?_ ?_)
    · intro w hw; cases hw; exact hv
    · intro w hw; cases hw
  case nbltypes v =>
    obtain ⟨-, ha, h1, hf, hp⟩ := at_
    obtain ⟨hv1, hv2⟩ := h.1.varlen v hf
    have hk : s.st.hphase.number = (s.advance n).st.cat.phase := by
      show _ = (DecoderState.cat { s.st with bitpos := s.st.bitpos + n }).phase
      rcases hp with e | e | e <;> simp [DecoderState.cat, hr, e, HPhase.number, Cat.phase]
    have hlt : s.st.hphase.number < 3 := by rw [hk]; cases (s.advance n).st.cat <;> decide
    have hnm : ¬ (s.st.hphase = .cmapL ∨ s.st.hphase = .cmapD) := by
      rintro (e | e) <;> rw [e] at hlt <;> exact absurd hlt (by decide)
    show RangeInv ({ s.advance n with st := (s.advance n).st.setBlockTypes (s.advance n).st.cat v } : State).commit
    refine range_row h n ?_
    generalize (s.advance n).st.cat = k at hk
    unfold DecoderState.setBlockTypes
    simp only []
    have htypes := types_set (k := k) (st := (s.advance n).st) (num := v) (cur := 0) (prev := 1) h.1.types
      ⟨hv1, hv2, by omega, by omega⟩
    have htree : ∀ j : Cat, j.phase < k.phase → 2 ≤ ((s.advance n).st.numBlockTypes.set k v).get j →
        ((s.advance n).st.blockTypeTree.get j).Below (((s.advance n).st.numBlockTypes.set k v).get j + 2) := by
      intro j hj
      have e : ((s.advance n).st.numBlockTypes.set k v).get j = (s.advance n).st.numBlockTypes.get j := by
        cases k <;> cases j <;> first | rfl | exact absurd hj (by decide)
      rw [e]; exact typeTrees_of h.1 (by rw [hk]; exact hj)
    have hget : ((s.advance n).st.numBlockTypes.set k v).get k = v := by cases k <;> rfl
    split
    · rename_i hv
      refine ranges_afterPartition ⟨?_, hr, h0.counter⟩ rfl hk ?_
      · refine ⟨fun _ => h0.counter, htypes, fun h5 => ?_, fun h6 => ?_, h.1.copying, h.1.tables, ?_, ?_, ?_, ?_, fun hh => absurd hh hnm,
          fun hh => absurd hh hnm⟩
        · have h5' : 5 < s.st.hphase.number := h5
          omega
        · have h6' : 6 < s.st.hphase.number := h6
          omega
        · rintro j (hj | ⟨-, h2⟩) h3
          · exact htree j (by rw [← hk]; exact hj) h3
          · have h2' : 2 ≤ s.st.hsub := h2
            omega
        · intro j _ hh'
          exact absurd hh' (by show s.st.pcActive ≠ true; simp [ha])
        · intro w hw; cases hw
        · intro w hw; cases hw
      · intro h2
        exfalso
        have h2' : 2 ≤ ((s.advance n).st.numBlockTypes.set k v).get k := h2
        rw [hget] at h2'; omega
    · refine ⟨fun _ => h0.counter, htypes, fun h5 => ?_, fun h6 => ?_, h.1.copying, h.1.tables, ?_, ?_, ?_, ?_, fun hh => absurd hh hnm,
          fun hh => absurd hh hnm⟩
      · have h5' : 5 < s.st.hphase.number := h5
        omega
      · have h6' : 6 < s.st.hphase.number := h6
        omega
      · rintro j (hj | ⟨-, h2⟩) h3
        · exact htree j (by rw [← hk]; exact hj) h3
        · exact absurd (show 2 ≤ 1 from h2) (by decide)
      · intro j hj _
        obtain rfl : j = k := by
          have : j.phase = k.phase := by rw [← hk]; exact hj.symm
          cases k <;> cases j <;> first | rfl | exact absurd this (by decide)
        exact .inr ⟨rfl, by show v + 2 = ((s.advance n).st.numBlockTypes.set j v).get j + 2; rw [hget]⟩
      · intro w hw; cases hw
      · intro w hw; cases hw
  case ntrees v =>
    obtain ⟨-, ha, h1, hf, hp⟩ := at_
    obtain ⟨hv1, hv2⟩ := h.1.varlen v hf
    have hpn : 5 ≤ s.st.hphase.number := by rcases hp with e | e <;> rw [e] <;> decide
    refine range_row h n (b := ((s.advance n).mapTrees v).st) ?_
    unfold State.mapTrees DecoderState.setMapTrees
    simp only []
    split
    · rename_i hv
      refine ranges_endMap ⟨?_, hr, h0.counter⟩ rfl hp hb.regs.contextMapL hb.regs.contextMapD rfl ?_
      · exact ⟨fun _ => h0.counter, h.1.types, h.1.literalMap, h.1.distanceMap, h.1.copying, h.1.tables, h.1.typeTrees, h.1.typeCode,
          fun w hw => (nomatch hw), fun w hw => (nomatch hw), h.1.mapCode,
          fun _ hh => absurd (show 1 ≤ s.st.hsub from hh) (by omega)⟩
      · intro i hi
        show ((s.st.cmMap.fill 0 (s.advance n).st.mapSize 0).read i).toNat < v
        have hi' : i < (s.advance n).st.mapSize := hi
        rw [Memory.read_fill hb.regs.cmMap, if_pos (by omega)]
        exact hv1
    · refine ⟨fun _ => h0.counter, h.1.types, h.1.literalMap, h.1.distanceMap, h.1.copying, h.1.tables, ?_, ?_,
          fun w hw => (nomatch hw), fun w hw => (nomatch hw), ?_, ?_⟩
      · intro k _ h2
        refine typeTrees_of h.1 ?_ h2
        cases k <;> simp only [Cat.phase] <;> omega
      · intro k _ hh'
        exact absurd hh' (by show s.st.pcActive ≠ true; simp [ha])
      · intro _ hh'
        exact absurd hh' (by show s.st.pcActive ≠ true; simp [ha])
      · intro _ _
        exact ⟨hv1, hv2, rfl, fun i hi => absurd hi (Nat.not_lt_zero i), fun hh => absurd (show 1 = 2 from hh) (by decide),
          fun hh => absurd (show 1 = 3 from hh) (by decide), fun hh => absurd (show 1 = 4 from hh) (by decide)⟩
  case npostfix p hp =>
    exact range_row h n (b := ((s.advance n).postfixBits p).st) (ranges_still hh (by constructor <;> rfl) rfl rfl rfl rfl)
  case ndirecthi d hd =>
    unfold State.directCodes
    split
    · exact range_advance_raise hb h n _
    · refine range_row h n (ranges_enterPhase (ranges_still hh (by constructor <;> rfl) rfl rfl rfl rfl) hr rfl h0.counter
        (fun h5 => absurd h5 (by decide)) (fun h6 => absurd h6 (by decide)) fun k _ h2 => typeTrees_of h.1 ?_ h2)
      rw [at_.2.2.1]; cases k <;> decide
  case cmode m hm =>
    refine range_row h n (b := ((s.advance n).contextMode m).st) ?_
    unfold State.contextMode
    simp only []
    split
    · exact ranges_still hh (by constructor <;> rfl) rfl rfl rfl rfl
    · refine ranges_enterPhase (ranges_still hh (by constructor <;> rfl) rfl rfl rfl rfl) hr rfl h0.counter
        (fun h5 => absurd h5 (by decide)) (fun h6 => absurd h6 (by decide)) fun k _ h2 => typeTrees_of h.1 ?_ h2
      rw [at_.2.2]; cases k <;> decide
  case rlemaxflag a =>
    obtain ⟨-, ha, h1, hf, hp⟩ := at_
    cases a
    · exact range_row h n (b := ((s.advance n).rleFlag false).st) (ranges_setRleMax hh h1 hp (by decide))
    · exact range_row h n (b := ((s.advance n).rleFlag true).st) (ranges_still hh (by constructor <;> rfl) rfl rfl rfl rfl)
  case rlemaxm1 r hr' =>
    obtain ⟨-, ha, h1, hf, hp⟩ := at_
    exact range_row h n (b := ((s.advance n).rleMax r).st) (ranges_setRleMax hh h1 hp (by omega))
  case cmapZero =>
    obtain ⟨-, ha, h1, hf, -, -, hp⟩ := at_
    obtain ⟨m1, m2, m3, m4, m5, m6, m7⟩ := h.1.map hp (by omega)
    refine range_row h n (b := ((s.advance n).mapEntry 0).st) (ranges_mapDone hh h1 hp fun i hi hs => ?_)
    show ((s.st.cmMap.write s.st.cmIdx (BitVec.ofNat 8 0)).read i).toNat < s.st.cmNumTrees
    have hi' : i < s.st.cmIdx + 1 := hi
    rw [Memory.read_write hb.regs.cmMap]
    split
    · exact m1
    · exact m4 i (by omega) hs
  case cmapValue x hx hT =>
    obtain ⟨-, ha, h1, hf, rfl, rfl, hp⟩ := at_
    obtain ⟨m1, m2, m3, m4, m5, m6, m7⟩ := h.1.map hp (by omega)
    obtain ⟨v, bits, hT⟩ := hT
    have hlt := m6 h1 v x bits hT
    refine range_row h n (b := ((s.advance n).mapEntry _).st) (ranges_mapDone hh h1 hp fun i hi hs => ?_)
    show ((s.st.cmMap.write s.st.cmIdx (BitVec.ofNat 8 (x - s.st.cmRleMax))).read i).toNat < s.st.cmNumTrees
    have hi' : i < s.st.cmIdx + 1 := hi
    rw [Memory.read_write hb.regs.cmMap]
    split
    · rw [BitVec.toNat_ofNat]
      exact Nat.lt_of_le_of_lt (Nat.mod_le _ _) (by omega)
    · exact m4 i (by omega) hs
  case cmapRun x y _ _ =>
    obtain ⟨-, ha, h1, hf, -, -, hp⟩ := at_
    obtain ⟨m1, m2, m3, m4, m5, m6, m7⟩ := h.1.map hp (by omega)
    unfold State.mapRun
    split
    · exact range_advance_raise hb h n _
    · refine range_row h n (ranges_mapDone hh h1 hp fun i hi hs => ?_)
      show ((s.st.cmMap.fill s.st.cmIdx (2 ^ x + y) 0).read i).toNat < s.st.cmNumTrees
      have hi' : i < s.st.cmIdx + (2 ^ x + y) := hi
      rw [Memory.read_fill hb.regs.cmMap]
      split
      · exact m1
      · exact m4 i (by omega) hs
  case imtf a =>
    obtain ⟨-, ha, h1, hf, hp⟩ := at_
    obtain ⟨m1, m2, m3, m4, m5, m6, m7⟩ := h.1.map hp (by omega)
    have hfull := m7 h1
    have hbase : InHeader { (s.advance n).st with field := .start } :=
      inHeader_still hh (by constructor <;> rfl) rfl rfl rfl rfl rfl
    refine range_row h n (b := ((s.advance n).mapTransform a).st) ?_
    unfold State.mapTransform
    simp only []
    split
    · refine ranges_endMap (st := DecoderState.setMap { (s.advance n).st with field := .start } _) ⟨?_, hr, h0.counter⟩ rfl hp
        hb.regs.contextMapL hb.regs.contextMapD m3 ?_
      · refine ⟨fun _ => h0.counter, h.1.types, h.1.literalMap, h.1.distanceMap, h.1.copying, h.1.tables, h.1.typeTrees, h.1.typeCode,
          fun w hw => (nomatch hw), fun w hw => (nomatch hw), h.1.mapCode, fun _ _ => ⟨m1, m2, m3, fun i hi hs => ?_, m5, m6, m7⟩⟩
        exact mtf_read hmtf hb.regs.cmMap m2 (fun i hi => m4 i (by omega) hi) i hs
      · intro i hs
        exact mtf_read hmtf hb.regs.cmMap m2 (fun i hi => m4 i (by omega) hi) i hs
    · exact ranges_endMap hbase rfl hp hb.regs.contextMapL hb.regs.contextMapD m3 (fun i hi => m4 i (Nat.lt_of_lt_of_le hi hfull) hi)
  case hskip m hm =>
    unfold State.codeStart
    split
    · exact range_row h n (ranges_still hh (by constructor <;> rfl) rfl rfl rfl rfl)
    · exact range_row h n (ranges_still hh (by constructor <;> rfl) rfl rfl rfl rfl)
  case nsymm1 m hm =>
    exact range_row h n (b := ((s.advance n).simpleCount m).st) (ranges_still hh (by constructor <;> rfl) rfl rfl rfl rfl)
  case symbol w x hx =>
    unfold State.simpleSymbol
    simp only []
    split
    · exact range_row h n (ranges_still hh (by constructor <;> rfl) rfl rfl rfl rfl)
    · split
      · exact range_row h n (ranges_still hh (by constructor <;> rfl) rfl rfl rfl rfl)
      · exact range_endSimple hb h hh at_.2.1 _ _
  case treeselect a => exact range_endSimple hb h hh at_.2.1 _ _
  case cllen v hv =>
    unfold State.codeLengthLength
    simp only []
    generalize (if v = 0 then (s.advance n).st.clSpace else _) = A
    generalize (if v = 0 then (s.advance n).st.clNum else _) = B
    split
    · split
      · exact range_advance_raise hb h n _
      · exact range_row h n (ranges_still hh (by constructor <;> rfl) rfl rfl rfl rfl)
    · exact range_row h n (ranges_still hh (by constructor <;> rfl) rfl rfl rfl rfl)
  case clsym x hx =>
    unfold State.symbolLength
    exact range_symbolLengthDone hb h (inHeader_still hh (by constructor <;> rfl) rfl rfl rfl rfl rfl) rfl at_.2.1
  case blen x y _ _ =>
    unfold State.blockCountCode State.blockCount
    obtain ⟨-, ha, h2, h3, hp⟩ := at_
    have hk : s.st.hphase.number = (s.advance n).st.cat.phase := by
      show _ = (DecoderState.cat { s.st with bitpos := s.st.bitpos + n }).phase
      rcases hp with e | e | e <;> simp [DecoderState.cat, hr, e, HPhase.number, Cat.phase]
    rw [show (s.advance n).st.field = .start from h3]
    simp only []
    refine range_row h n (ranges_afterPartition (inHeader_still hh (by constructor <;> rfl) rfl rfl rfl rfl rfl) rfl hk fun h4 => ?_)
    exact h.1.typeTrees _ (.inr ⟨hk, by omega⟩) h4
  case clsym16 x hx => exact range_repeatLength hb h hh at_.2.1 _ _ _
  case clsym17 x hx => exact range_repeatLength hb h hh at_.2.1 _ _ _

/-! ## Commands -/

/-- A row that leaves the header's registers alone, seen from the state before it. -/
theorem range_same {s : State} (h : RangeInv s) (n : Nat) {b : DecoderState} (k : SameHeader s.st b)
    (counter : b.field ≠ .copyLen → b.j ≤ max b.insertLength b.copyLength)
    (copying : b.decodingState = .copyLoop → b.j ≤ b.copyLength)
    (tables : b.decodingState = .mainLoop ∨ b.decodingState = .insertLoop ∨ b.decodingState = .copyLoop ∨
      b.decodingState = .useDictionary ∨ b.decodingState = .compoundDictionaryCopy → s.st.hphase = .finalize)
    (varlen : ∀ v, b.field ≠ .varlenResult v := by intro _ h; cases h)
    (switching : ∀ t, b.field = .blockCount t → t < s.st.numBlockTypes.get b.cat + 2 := by intro _ h; cases h) :
    RangeInv ({ s.advance n with st := b } : State).commit :=
  range_row h n (ranges_of_same h.1 k counter copying tables (fun v hv => absurd hv (varlen v)) switching)

/-- A switch to a type in range leaves the types in range (R295). -/
theorem types_switch {st : DecoderState} {k : Cat} {t : Nat}
    (h : ∀ k, TypesInRange (st.numBlockTypes.get k) (st.blockType.get k) (st.prevBlockType.get k))
    (ht : t < st.numBlockTypes.get k + 2) (j : Cat) :
    TypesInRange (st.numBlockTypes.get j) ((st.blockType.set k (st.newBlockType k t)).get j)
      ((st.prevBlockType.set k (st.blockType.get k)).get j) := by
  obtain ⟨h1, h2, h3, h4⟩ := h k
  have hk : TypesInRange (st.numBlockTypes.get k) (st.newBlockType k t) (st.blockType.get k) := by
    refine ⟨h1, h2, ?_, by omega⟩
    unfold DecoderState.newBlockType
    match t with
    | 0 => simp only []; split <;> omega
    | 1 => simp only []; split <;> omega
    | t + 2 => simp only []; split <;> omega
  have := h j
  cases k <;> cases j <;> first | exact hk | exact this

/-- A block switch's count (R295). -/
theorem range_blockCount {s : State} (h : RangeInv s) (hr : s.st.runningState = .mainLoop ∨ s.st.runningState = .insertLoop)
    (n m t : Nat) (hf : s.st.field = .blockCount t) : RangeInv ((s.advance n).blockCount m).commit := by
  have ht := h.1.switching t hf
  have hd : s.st.decodingState = s.st.runningState := by
    unfold DecoderState.decodingState; rcases hr with e | e <;> simp [e]
  have hz : s.st.hphase = .finalize := h.1.tables (by rw [hd]; tauto)
  have hcat : (s.advance n).st.cat = s.st.cat := rfl
  unfold State.blockCount
  rw [show (s.advance n).st.field = .blockCount t from hf]
  rw [hcat]
  refine range_row h n (b := (s.advance n).st.switchBlock s.st.cat t m) ?_
  have hnm : ¬ (s.st.hphase = .cmapL ∨ s.st.hphase = .cmapD) := by rw [hz]; simp
  refine ⟨fun _ => h.1.counter (by rw [hf]; simp), types_switch (st := (s.advance n).st) h.1.types ht, h.1.literalMap,
    h.1.distanceMap, h.1.copying, h.1.tables, h.1.typeTrees, h.1.typeCode, ?_, ?_, h.1.mapCode, fun hh => absurd hh hnm⟩
  · intro v hv; cases hv
  · intro v hv; cases hv

/-- MainLoop's elements. -/
theorem range_main {s u : State} {c n} (hb : BaseInv s) (h : RangeInv s) (hr : s.st.runningState = .mainLoop)
    (at_ : At s.st c) (he : Effect (s.advance n) c u) : RangeInv u.commit := by
  have hd : s.st.decodingState = .mainLoop := by simp [DecoderState.decodingState, hr]
  have hz : s.st.hphase = .finalize := h.1.tables (.inl hd)
  have hcat : s.st.cat = .I := by simp [DecoderState.cat, hr]
  cases he <;> simp only [At, hr, reduceCtorEq, false_and, and_false, or_false, false_or, true_and, true_or] at at_
  case btype t hT =>
    obtain ⟨⟨rfl, h2⟩, hf, -⟩ := at_
    obtain ⟨v, bits, hT⟩ := hT
    refine range_same h n (b := ((s.advance n).switchType t).st) (by constructor <;> rfl) (fun _ => h.1.counter (by simp [hf]))
      (fun hh => ?_) (fun _ => hz) (switching := fun t' ht' => ?_)
    · exact absurd (show s.st.decodingState = .copyLoop from hh) (by simp [hd])
    · cases ht'
      exact h.1.typeTrees _ (.inl (by rw [hz, hcat]; decide)) h2 v _ bits hT
  case blen x y _ _ =>
    obtain ⟨t, ht⟩ := at_
    exact range_blockCount h (.inl hr) n _ t ht
  case cmd x _ =>
    refine range_same h n (b := ((s.advance n).command x).st) (by constructor <;> rfl) (fun _ => h.1.counter (by simp [at_]))
      (fun hh => ?_) (fun _ => hz)
    exact absurd (show s.st.decodingState = .copyLoop from hh) (by simp [hd])
  case insLen code x _ =>
    refine range_same h n (b := ((s.advance n).insertLengthCode _ x).st) (by constructor <;> rfl) (fun hh => absurd rfl hh)
      (fun hh => ?_) (fun _ => hz)
    exact absurd (show s.st.decodingState = .copyLoop from hh) (by simp [hd])
  case copyLen code x _ =>
    unfold State.copyLengthCode
    split
    · exact range_advance_raise hb h n _
    · refine range_same h n (by constructor <;> rfl) (fun _ => Nat.zero_le _) (fun _ => Nat.zero_le _) (fun _ => hz)

/-- After an emitting step: the fence test changes the control state only (R385). -/
theorem decoding_fence {st : DecoderState} {r : RunningState} (hr : r ≠ .writeOutput) :
    (st.fenceTest r).decodingState = r := by
  unfold DecoderState.fenceTest DecoderState.decodingState
  split <;> simp [hr]

theorem same_fence (st : DecoderState) (r : RunningState) :
    SameHeader st (st.fenceTest r) ∧ (st.fenceTest r).j = st.j ∧ (st.fenceTest r).insertLength = st.insertLength ∧
      (st.fenceTest r).copyLength = st.copyLength ∧ (st.fenceTest r).field = st.field := by
  unfold DecoderState.fenceTest
  split <;> exact ⟨by constructor <;> rfl, rfl, rfl, rfl, rfl⟩

theorem SameHeader.trans {a b c : DecoderState} (h : SameHeader a b) (k : SameHeader b c) : SameHeader a c := by
  obtain ⟨⟩ := h; obtain ⟨⟩ := k
  constructor <;> simp_all

theorem same_push (st : DecoderState) (d : Nat) : SameHeader st (st.pushDistance d) := by constructor <;> rfl

/-- `Resolve()` (R320 to R324). -/
theorem range_resolve {s : State} (hb : BaseInv s) (h : RangeInv s) {n : Nat} {st : DecoderState} (k : SameHeader s.st st)
    (hz : s.st.hphase = .finalize) (hj : st.j ≤ max st.insertLength st.copyLength) :
    RangeInv ((s.advance n).resolve st).commit := by
  unfold State.resolve
  simp only []
  split
  · exact range_same h n (k.trans (by constructor <;> rfl)) (fun _ => hj) (by simp [DecoderState.decodingState]) (fun _ => hz)
  · split <;> split
    · exact range_advance_raise hb h n _
    · exact range_same h n (k.trans (by constructor <;> rfl)) (fun _ => Nat.zero_le _) (fun _ => Nat.zero_le _) (fun _ => hz)
    · exact range_advance_raise hb h n _
    · exact range_same h n (k.trans (by constructor <;> rfl)) (fun _ => Nat.zero_le _) (fun _ => Nat.zero_le _) (fun _ => hz)

theorem range_explicit {s : State} (hb : BaseInv s) (h : RangeInv s) {n : Nat} (hz : s.st.hphase = .finalize)
    (hf : s.st.field = .start) (sym : Nat) (d : Int) : RangeInv ((s.advance n).explicitDistance sym d).commit := by
  unfold State.explicitDistance
  split
  · exact range_advance_raise hb h n _
  · exact range_resolve hb h (by constructor <;> rfl) hz (h.1.counter (by simp [hf]))

/-- InsertLoop's elements. -/
theorem range_insert {s u : State} {c n} (hb : BaseInv s) (h : RangeInv s) (hr : s.st.runningState = .insertLoop)
    (at_ : At s.st c) (he : Effect (s.advance n) c u) : RangeInv u.commit := by
  have hd : s.st.decodingState = .insertLoop := by simp [DecoderState.decodingState, hr]
  have hz : s.st.hphase = .finalize := h.1.tables (by tauto)
  cases he <;> simp only [At, hr, reduceCtorEq, false_and, and_false, or_false, false_or, true_and, true_or] at at_
  case btype t hT =>
    obtain ⟨⟨rfl, h2⟩, h3⟩ := at_
    obtain ⟨v, bits, hT⟩ := hT
    have hf : s.st.field = .start := by tauto
    refine range_same h n (b := ((s.advance n).switchType t).st) (by constructor <;> rfl) (fun _ => h.1.counter (by simp [hf]))
      (fun hh => ?_) (fun _ => hz) (switching := fun t' ht' => ?_)
    · exact absurd (show s.st.decodingState = .copyLoop from hh) (by simp [hd])
    · cases ht'
      exact h.1.typeTrees _ (.inl (by rw [hz]; cases s.st.cat <;> decide)) h2 v _ bits hT
  case blen x y _ _ =>
    obtain ⟨t, ht⟩ := at_
    exact range_blockCount h (.inr hr) n _ t ht
  case lit b =>
    obtain ⟨hf, hj⟩ := at_
    obtain ⟨k, k1, k2, k3, k4⟩ := same_fence ({ (s.advance n).st.emit b with
      blockLength := (s.advance n).st.blockLength.set .L ((s.advance n).st.blockLength.L - 1)
      j := (s.advance n).st.j + 1
      metaBlockLength := (s.advance n).st.metaBlockLength - 1
      field := .start } : DecoderState) .insertLoop
    refine range_same h n (b := ((s.advance n).literal b).st) (SameHeader.trans (by constructor <;> rfl) k) (fun _ => ?_) (fun hh => ?_)
      (fun _ => hz) (fun v hv => ?_) (fun t ht => ?_)
    · show DecoderState.j (DecoderState.fenceTest _ _) ≤ max (DecoderState.insertLength (DecoderState.fenceTest _ _)) _
      rw [k1, k2]
      exact Nat.le_trans (show s.st.j + 1 ≤ s.st.insertLength from hj) (Nat.le_max_left _ _)
    · rw [show DecoderState.decodingState ((s.advance n).literal b).st = .insertLoop from decoding_fence (by simp)] at hh
      cases hh
    · rw [show DecoderState.field ((s.advance n).literal b).st = .start from k4] at hv; cases hv
    · rw [show DecoderState.field ((s.advance n).literal b).st = .start from k4] at ht; cases ht
  case distImplicit =>
    exact range_resolve hb h (by constructor <;> rfl) hz (h.1.counter (by simp [at_]))
  case distShort => exact range_explicit hb h hz at_.1 _ _
  case distDirect => exact range_explicit hb h hz at_.1 _ _
  case distLong => exact range_explicit hb h hz at_.1 _ _

/-! ## Headers, raw bytes, dictionary words -/

/-- Outside MainLoop the command's lengths bound the counter. -/
theorem counter_of {s : State} (hb : BaseInv s) (h : RangeInv s) (hr : s.st.runningState ≠ .mainLoop) :
    s.st.j ≤ max s.st.insertLength s.st.copyLength := by
  refine h.1.counter fun hf => ?_
  have := hb.regs.field
  unfold DecoderState.FieldFits at this
  rw [hf] at this
  exact hr this

/-- `CompressedHeader()` (R229): no table of the new meta-block has been read. -/
theorem ranges_compressedHeader {st : DecoderState}
    (types : ∀ k, TypesInRange (st.numBlockTypes.get k) (st.blockType.get k) (st.prevBlockType.get k))
    (counter : st.j ≤ max st.insertLength st.copyLength) : Ranges st.compressedHeader := by
  refine ⟨fun _ => counter, types, fun h => ?_, fun h => ?_, fun h => ?_, fun h => ?_, ?_, fun k _ h => (nomatch h), fun v h => (nomatch h),
    fun t h => (nomatch h), fun h => ?_, fun h => ?_⟩
  · exact absurd h (show ¬ 5 < 0 by decide)
  · exact absurd h (show ¬ 6 < 0 by decide)
  · exact absurd h (show RunningState.metablockHuffmanData ≠ .copyLoop by decide)
  · rw [show st.compressedHeader.decodingState = .metablockHuffmanData from rfl] at h
    simp at h
  · rintro k (h | ⟨-, h⟩)
    · exact absurd h (Nat.not_lt_zero _)
    · exact absurd h (show ¬ 2 ≤ 0 by decide)
  · exact absurd h (show ¬ (HPhase.partL = .cmapL ∨ HPhase.partL = .cmapD) by decide)
  · exact absurd h (show ¬ (HPhase.partL = .cmapL ∨ HPhase.partL = .cmapD) by decide)

/-- A row outside the compressed header and the commands. -/
theorem range_aside {s : State} (h : RangeInv s) (n : Nat) {b : DecoderState} (k : SameHeader s.st b)
    (counter : b.j ≤ max b.insertLength b.copyLength)
    (hd : b.decodingState = .blockStart ∨ b.decodingState = .metablockHeader ∨ b.decodingState = .metadata ∨
      b.decodingState = .uncompressed ∨ b.decodingState = .finished)
    (varlen : ∀ v, b.field ≠ .varlenResult v := by intro _ h; cases h)
    (switching : ∀ t, b.field ≠ .blockCount t := by intro _ h; cases h) :
    RangeInv ({ s.advance n with st := b } : State).commit := by
  refine range_same h n k (fun _ => counter) (fun hh => ?_) (fun hh => ?_) varlen (fun t ht => absurd ht (switching t)) <;>
    rcases hd with e | e | e | e | e <;> rw [e] at hh <;> simp at hh

/-- The meta-block header's elements. -/
theorem range_header {s u : State} {c n} (hb : BaseInv s) (h : RangeInv s) (hr : s.st.runningState = .metablockHeader)
    (at_ : At s.st c) (he : Effect (s.advance n) c u) : RangeInv u.commit := by
  have hj := counter_of hb h (by simp [hr])
  have hd : s.st.decodingState = .metablockHeader := by simp [DecoderState.decodingState, hr]
  cases he <;> simp only [At, hr, reduceCtorEq, false_and, and_false, or_false, false_or] at at_
  case isLast a =>
    refine range_aside h n (b := ((s.advance n).headerIsLast a).st) (by constructor <;> rfl) hj (.inr (.inl hd)) ?_ ?_ <;>
      intro _ <;> cases a <;> simp [State.headerIsLast]
  case isLastEmpty a =>
    cases a
    · exact range_aside h n (b := ((s.advance n).headerIsLastEmpty false).st) (by constructor <;> rfl) hj (.inr (.inl hd))
    · exact range_aside h n (b := ((s.advance n).headerIsLastEmpty true).st) (by constructor <;> rfl) hj (.inl rfl)
  case mnibbles m hm =>
    unfold State.headerNibbles
    split
    · exact range_aside h n (by constructor <;> rfl) hj (.inr (.inl hd))
    · exact range_aside h n (by constructor <;> rfl) hj (.inr (.inl hd))
  case mlen nn m hnn hm =>
    unfold State.headerLength
    split
    · exact range_advance_raise hb h n _
    · simp only []
      split
      · exact range_row h n (ranges_compressedHeader h.1.types hj)
      · exact range_aside h n (by constructor <;> rfl) hj (.inr (.inl hd))
  case isUncompressed a =>
    cases a
    · exact range_row h n (ranges_compressedHeader h.1.types hj)
    · exact range_aside h n (b := ((s.advance n).headerIsUncompressed true).st) (by constructor <;> rfl) hj (.inr (.inl hd))
  case reserved => exact range_aside h n (b := ((s.advance n).headerReserved).st) (by constructor <;> rfl) hj (.inr (.inl hd))
  case mskipbytes m hm =>
    unfold State.headerSkipBytes
    split
    · exact range_aside h n (by constructor <;> rfl) hj (.inr (.inl hd))
    · exact range_aside h n (by constructor <;> rfl) hj (.inr (.inl hd))
  case mskiplen nb k hnb hk =>
    unfold State.headerSkipLength
    split
    · exact range_advance_raise hb h n _
    · exact range_aside h n (by constructor <;> rfl) hj (.inr (.inl hd))
  case pad w =>
    refine range_aside h n (b := ((s.advance n).headerPadded).st) (by constructor <;> rfl) hj ?_
    unfold State.headerPadded DecoderState.decodingState
    by_cases hm : s.st.isMetadata = true <;> simp [hm]

/-- The elements of the other states. -/
theorem range_others {s u : State} {c n} (hb : BaseInv s) (h : RangeInv s)
    (hr : s.st.runningState = .initialized ∨ s.st.runningState = .uncompressed ∨ s.st.runningState = .metadata ∨
      s.st.runningState = .finished ∨ s.st.runningState = .useDictionary)
    (at_ : At s.st c) (he : Effect (s.advance n) c u) : RangeInv u.commit := by
  have hj := counter_of hb h (by rintro e; rw [e] at hr; simp at hr)
  cases he <;> (try (exfalso; simp only [At] at at_; rcases hr with h | h | h | h | h <;> simp [h] at at_; done)) <;>
    (try exact at_.elim)
  case window wb _ =>
    exact range_aside h n (b := ((s.advance n).setWindow false wb).st) (by constructor <;> rfl) hj (.inl rfl)
  case largeWindow wb =>
    unfold State.setLargeWindow
    split
    · exact range_advance_raise hb h n _
    · exact range_aside h n (b := ((s.advance n).setWindow true wb).st) (by constructor <;> rfl) hj (.inl rfl)
  case reservedWindow => exact range_advance_raise hb h n _
  case finalPad w =>
    refine range_aside h n (b := ((s.advance n).finalPadded).st) (by constructor <;> rfl) hj (.inr (.inr (.inr (.inr ?_))))
    simp [DecoderState.decodingState, State.finalPadded, at_.1]
  case raw b =>
    obtain ⟨k, k1, k2, k3, k4⟩ := same_fence ({ (s.advance n).st.emit b with
      metaBlockLength := (s.advance n).st.metaBlockLength - 1
      field := .start } : DecoderState) .uncompressed
    refine range_aside h n (b := ((s.advance n).rawByte b).st) (SameHeader.trans (by constructor <;> rfl) k) ?_
      (.inr (.inr (.inr (.inl (decoding_fence (by simp)))))) (fun v hv => ?_) (fun t ht => ?_)
    · show DecoderState.j (DecoderState.fenceTest _ _) ≤ max (DecoderState.insertLength (DecoderState.fenceTest _ _))
        (DecoderState.copyLength (DecoderState.fenceTest _ _))
      rw [k1, k2, k3]; exact hj
    · rw [show DecoderState.field ((s.advance n).rawByte b).st = .start from k4] at hv; cases hv
    · rw [show DecoderState.field ((s.advance n).rawByte b).st = .start from k4] at ht; cases ht
  case skip =>
    refine range_aside h n (b := ((s.advance n).skipByte).st) (by constructor <;> rfl) hj (.inr (.inr (.inl ?_)))
    simp [DecoderState.decodingState, State.skipByte, at_.1]
  case transform m hm =>
    have hd : s.st.decodingState = .useDictionary := by simp [DecoderState.decodingState, at_.1]
    have hz : s.st.hphase = .finalize := h.1.tables (by tauto)
    unfold State.emitWord
    split
    · exact range_advance_raise hb h n _
    · generalize (s.advance n).staticWord m = bs
      obtain ⟨-, -, -, rb, p, hh, h4⟩ := emitAll_core (s.advance n).st bs hb.regs.ringBuffer hb.regs.produced
      rw [h4]
      obtain ⟨k, k1, k2, k3, k4⟩ := same_fence ({ (s.advance n).st with
        RB := rb
        pos := p
        H := hh
        metaBlockLength := (s.advance n).st.metaBlockLength - bs.length
        field := .start } : DecoderState) .mainLoop
      refine range_same h n (SameHeader.trans (by constructor <;> rfl) k) (fun _ => ?_) (fun hh => ?_) (fun _ => hz) (fun v hv => ?_)
        (fun t ht => ?_)
      · rw [k1, k2, k3]; exact hj
      · rw [decoding_fence (by simp)] at hh; cases hh
      · rw [k4] at hv; cases hv
      · rw [k4] at ht; cases ht

/-- A row keeps the ranges. -/
theorem range_effect {s u : State} {c n} (hb : BaseInv s) (h : RangeInv s)
    (hmtf : ∀ (k : Nat) (map : List Byte), k ≤ 256 → (∀ b ∈ map, b.toNat < k) →
      (inverseMoveToFront map).length = map.length ∧ ∀ b ∈ inverseMoveToFront map, b.toNat < k)
    (at_ : At s.st c) (he : Effect (s.advance n) c u) : RangeInv u.commit := by
  rcases hr : s.st.runningState
  case initialized => exact range_others hb h (by simp [hr]) at_ he
  case uncompressed => exact range_others hb h (by simp [hr]) at_ he
  case metadata => exact range_others hb h (by simp [hr]) at_ he
  case finished => exact range_others hb h (by simp [hr]) at_ he
  case useDictionary => exact range_others hb h (by simp [hr]) at_ he
  case mainLoop => exact range_main hb h hr at_ he
  case insertLoop => exact range_insert hb h hr at_ he
  case metablockHeader => exact range_header hb h hr at_ he
  case metablockHuffmanData => exact range_huffman hb h hmtf hr at_ he
  all_goals (exfalso; cases c <;> simp [At, hr] at at_)

/-! ## Element steps without a row, host commands -/

/-- A change of the registers outside a row that leaves the header's alone. -/
theorem range_step {s t : State} (h : RangeInv s) (k : SameHeader s.st t.st) (hck : ∀ c, t.ckpt = some c → s.ckpt = some c)
    (counter : t.st.field ≠ .copyLen → t.st.j ≤ max t.st.insertLength t.st.copyLength)
    (copying : t.st.decodingState = .copyLoop → t.st.j ≤ t.st.copyLength)
    (tables : t.st.decodingState = .mainLoop ∨ t.st.decodingState = .insertLoop ∨ t.st.decodingState = .copyLoop ∨
      t.st.decodingState = .useDictionary ∨ t.st.decodingState = .compoundDictionaryCopy → s.st.hphase = .finalize)
    (hf : t.st.field = .start) : RangeInv t.commit := by
  refine range_commit ⟨ranges_of_same h.1 k counter copying tables (fun v hv => ?_) (fun t ht => ?_), fun c hc => h.2 c (hck c hc)⟩
  · rw [hf] at hv; cases hv
  · rw [hf] at ht; cases ht

theorem range_internal {s : State} {op : Internal} (hb : BaseInv s) (h : RangeInv s) (ha : AtInternal s.st op) :
    RangeInv (op.run s).commit := by
  have hregs := hb.regs
  cases op
  case blockStart =>
    have hf := field_of_run hregs.field (.inl ha)
    have hj := counter_of hb h (by rw [show s.st.runningState = _ from ha]; simp)
    unfold Internal.run State.stepBlockStart
    simp only []
    split
    · exact range_step h (by constructor <;> rfl) (fun _ hc => hc) (fun _ => hj) (by simp [DecoderState.decodingState])
        (by simp [DecoderState.decodingState]) hf
    · exact range_step h (by constructor <;> rfl) (fun _ hc => hc) (fun _ => hj) (by simp [DecoderState.decodingState])
        (by simp [DecoderState.decodingState]) hf
  case endOfBlock =>
    obtain ⟨h1, -⟩ := ha
    have hf : s.st.field = .start := by
      rcases h1 with ⟨-, h1⟩ | h1 | h1
      · exact h1
      · exact field_of_run hregs.field (by simp [h1])
      · exact field_of_run hregs.field (by simp [h1])
    exact range_step h (t := s.stepEndOfBlock) (by constructor <;> rfl) (fun _ hc => hc) (fun _ => h.1.counter (by simp [hf]))
      (by simp [DecoderState.decodingState, State.stepEndOfBlock]) (by simp [DecoderState.decodingState, State.stepEndOfBlock]) hf
  case finalize =>
    have hf := field_of_run hregs.field (by simp [AtInternal] at ha; simp [ha])
    exact range_step h (t := s.stepFinalize) (by constructor <;> rfl) (fun _ hc => hc) (fun _ => Nat.zero_le _) (fun _ => Nat.zero_le _)
      (fun _ => ha.2.2) hf
  case literalsDone =>
    obtain ⟨hr, hf, -⟩ := ha
    have hz : s.st.hphase = .finalize := h.1.tables (.inr (.inl (by simp [DecoderState.decodingState, hr])))
    exact range_step h (t := s.stepLiteralsDone) (by constructor <;> rfl) (fun _ hc => hc) (fun _ => h.1.counter (by simp [hf]))
      (by simp [DecoderState.decodingState, State.stepLiteralsDone]) (fun _ => hz) hf
  case copy =>
    have hf := field_of_run hregs.field (by simp [ha.1])
    have hd : s.st.decodingState = .copyLoop := by simp [DecoderState.decodingState, ha.1]
    have hz : s.st.hphase = .finalize := h.1.tables (by tauto)
    have hcp := h.1.copying hd
    unfold Internal.run State.stepCopy
    simp only []
    split
    · exact range_step h (by constructor <;> rfl) (fun _ hc => hc) (fun _ => h.1.counter (by simp [hf]))
        (by simp [DecoderState.decodingState]) (fun _ => hz) hf
    · rename_i hne
      obtain ⟨k, k1, k2, k3, k4⟩ := same_fence ({ s.st.emit (s.st.ringBack s.st.distance) with
        j := s.st.j + 1
        metaBlockLength := s.st.metaBlockLength - 1 } : DecoderState) .copyLoop
      have hlt : s.st.j + 1 ≤ s.st.copyLength := by omega
      refine range_step h (SameHeader.trans (by constructor <;> rfl) k) (fun _ hc => hc) (fun _ => ?_) (fun _ => ?_) (fun _ => hz)
        (k4.trans hf)
      · show DecoderState.j (DecoderState.fenceTest _ _) ≤ max _ (DecoderState.copyLength (DecoderState.fenceTest _ _))
        rw [k1, k3]; exact Nat.le_trans hlt (Nat.le_max_right _ _)
      · show DecoderState.j (DecoderState.fenceTest _ _) ≤ DecoderState.copyLength (DecoderState.fenceTest _ _)
        rw [k1, k3]; exact hlt
  case compoundCopy =>
    have hf := field_of_run hregs.field (by simp [ha.1])
    have hj := counter_of hb h (by simp [ha.1])
    have hz : s.st.hphase = .finalize := h.1.tables (by simp [DecoderState.decodingState, ha.1])
    unfold Internal.run State.stepCompoundCopy
    simp only []
    split
    · exact range_step h (by constructor <;> rfl) (fun _ hc => hc) (fun _ => hj) (by simp [DecoderState.decodingState]) (fun _ => hz) hf
    · obtain ⟨i, o, e⟩ := skipChunks_core ({ s.st.emit (s.st.CD.getD s.st.cdAddress 0) with
          cdBrCopied := s.st.cdBrCopied + 1
          metaBlockLength := s.st.metaBlockLength - 1
          cdBrOffset := s.st.cdBrOffset + 1 } : DecoderState) 16
      rw [e]
      obtain ⟨k, k1, k2, k3, k4⟩ := same_fence ({ s.st.emit (s.st.CD.getD s.st.cdAddress 0) with
          cdBrCopied := s.st.cdBrCopied + 1
          metaBlockLength := s.st.metaBlockLength - 1
          cdBrIndex := i
          cdBrOffset := o } : DecoderState) .compoundDictionaryCopy
      refine range_step h (SameHeader.trans (by constructor <;> rfl) k) (fun _ hc => hc) (fun _ => ?_) (fun hh => ?_) (fun _ => hz)
        (k4.trans hf)
      · show DecoderState.j (DecoderState.fenceTest _ _) ≤ max (DecoderState.insertLength (DecoderState.fenceTest _ _))
          (DecoderState.copyLength (DecoderState.fenceTest _ _))
        rw [k1, k2, k3]; exact hj
      · rw [show DecoderState.decodingState _ = .compoundDictionaryCopy from decoding_fence (by simp)] at hh; cases hh
  case useDictionary =>
    have hf := field_of_run hregs.field (by simp [ha.1])
    have hj := counter_of hb h (by simp [ha.1])
    have hz : s.st.hphase = .finalize := h.1.tables (by simp [DecoderState.decodingState, ha.1])
    unfold Internal.run State.useDictionary State.compoundStart
    simp only []
    split
    · exact range_commit (range_raise hb h _)
    · split
      · split
        · exact range_commit (range_raise hb h _)
        · split
          · exact range_commit (range_raise hb h _)
          · exact range_step h (by constructor <;> rfl) (fun _ hc => hc) (fun _ => hj) (by simp [DecoderState.decodingState])
              (fun _ => hz) hf
      · exact range_commit (range_raise hb h _)
  case writeOutput =>
    have hr : s.st.runningState = .writeOutput := ha
    have hf := field_of_run hregs.field (by simp [hr])
    have hj := counter_of hb h (by simp [hr])
    have hd : s.st.decodingState = s.st.resumeState := by simp [DecoderState.decodingState, hr]
    unfold Internal.run State.stepWriteOutput
    simp only []
    split
    · exact range_step h (t := s.deliverOutput.endCall .needMoreOutput) (by constructor <;> rfl) (fun _ hc => nomatch hc) (fun _ => hj)
        h.1.copying h.1.tables hf
    · have hres : s.st.resumeState ≠ .writeOutput := by
        intro e
        have := hregs.resume hr
        rw [e] at this; cases this
      have hd' : ∀ r, DecoderState.decodingState { s.deliverOutput.st with runningState := s.st.resumeState } = r →
          s.st.decodingState = r := by
        intro r hh
        rw [hd]
        simpa [DecoderState.decodingState, hres] using hh
      exact range_step h (t := { s.deliverOutput with st := { s.deliverOutput.st with runningState := s.st.resumeState } })
        (by constructor <;> rfl) (fun _ hc => hc) (fun _ => hj) (fun hh => h.1.copying (hd' _ hh))
        (fun hh => h.1.tables (hh.imp (hd' _) (.imp (hd' _) (.imp (hd' _) (.imp (hd' _) (hd' _)))))) hf
  case atEnd =>
    obtain ⟨h1, h2⟩ := ha
    have hj := counter_of hb h (by simp [h1])
    unfold Internal.run State.stepAtEnd
    simp only []
    split
    · exact range_commit (range_raise hb h _)
    · split
      · exact range_step h (t := State.endCall .done { s with st := { s.st with field := .start } }) (by constructor <;> rfl)
          (fun _ hc => nomatch hc) (fun _ => hj) (by simp [DecoderState.decodingState, State.endCall, h1])
          (by simp [DecoderState.decodingState, State.endCall, h1]) rfl
      · exact range_commit (range_pull hb h)

theorem range_commandIn {s : State} (hb : BaseInv s) (h : RangeInv s) (l k) (f : State → State)
    (hf : s.st.runningState = l → RangeInv (f s)) : RangeInv (s.commandIn l k f) := by
  unfold State.commandIn
  split
  · exact h
  · exact h
  · split
    · exact hf ‹_›
    · exact range_raise hb h k

theorem range_host {s u : State} {src chunk cap} (hb : BaseInv s) (h : RangeInv s) (hc : s.inCall = false)
    (he : Effect s (.hostCommand src chunk cap) u) : RangeInv u := by
  have hck := hb.idle hc
  have hf := hb.whole hck
  have key : ∀ t : State, t.ckpt = s.ckpt → SameHeader s.st t.st → t.st.field = .start → t.st.j = s.st.j →
      t.st.insertLength = s.st.insertLength → t.st.copyLength = s.st.copyLength →
      (t.st.decodingState = s.st.decodingState ∨ t.st.decodingState = .initialized ∨ t.st.decodingState = .closed) → RangeInv t := by
    intro t h1 h2 h3 h4 h5 h6 h7
    have hj := h.1.counter (by simp [hf])
    refine ⟨ranges_of_same h.1 h2 (fun _ => by rw [h4, h5, h6]; exact hj) (fun hh => ?_) (fun hh => ?_)
      (fun v hv => absurd (h3 ▸ hv) (by simp)) (fun v hv => absurd (h3 ▸ hv) (by simp)), fun c hcc => ?_⟩
    · rcases h7 with e | e | e
      · rw [h4, h6]; exact h.1.copying (e ▸ hh)
      · rw [e] at hh; cases hh
      · rw [e] at hh; cases hh
    · rcases h7 with e | e | e
      · exact h.1.tables (e ▸ hh)
      · rw [e] at hh; simp at hh
      · rw [e] at hh; simp at hh
    · rw [h1, hck] at hcc; cases hcc
  cases he
  case reset => exact ⟨ranges_reset, fun c hcc => nomatch hcc⟩
  case init =>
    exact range_commandIn hb h _ _ _ fun _ => key _ rfl (by constructor <;> rfl) hf rfl rfl rfl
      (.inr (.inl (by simp [DecoderState.decodingState, State.initSession])))
  case enableLargeWindow =>
    exact range_commandIn hb h _ _ _ fun _ => key _ rfl (by constructor <;> rfl) hf rfl rfl rfl (.inl rfl)
  case enableEagerOutput =>
    exact range_commandIn hb h _ _ _ fun _ => key _ rfl (by constructor <;> rfl) hf rfl rfl rfl (.inl rfl)
  case attach =>
    refine range_commandIn hb h _ _ _ fun _ => ?_
    unfold State.attachChunk
    split
    · exact range_raise hb h _
    · exact key _ rfl (by constructor <;> rfl) hf rfl rfl rfl (.inl rfl)
  case decompress =>
    unfold State.beginCall
    split
    · exact h
    · exact h
    · exact range_raise hb h _
    · exact key _ rfl (by constructor <;> rfl) hf rfl rfl rfl (.inl rfl)
  case close =>
    exact key _ rfl (by constructor <;> rfl) hf rfl rfl rfl (.inr (.inr (by simp [DecoderState.decodingState, State.closeSession])))

end Sys2Proof.Laws
end

