-- ==== Sys2Proof/Tests/Slice0.lean ====
section
/-! SUPPORT. Tests: every row's decoding from a word written out from the spec's encoding, ill-formed terms, the spec's
worked examples, and a witness for every statement with hypotheses. Expected results come from the rules named. -/

-- One test after the other: each test the kernel evaluates would hold a thread of its own while the others are checked.
set_option Elab.async false

open Sys2Proof Sys2Proof.Machine

namespace Sys2Proof.Tests

/-! ## Decoding: one word for each row of the opcode table -/

/-- A table whose code has the word `0` for symbol 999 and the word `1` for symbol `s` (R180, R184). -/
def oneBit (s : Nat) : HuffmanTable :=
  { rootBits := 8, lengths := []
    entries := (List.range 256).map fun k => packEntry 1 (if k % 2 = 1 then s else 999) }

/-- Each word `v` of `n` bits is instruction `i` as element `c`: alone at the end of the stream, and with bits after it. -/
def reads (rows : List (Ctx × Nat × Nat × Instr)) : Bool :=
  rows.all fun r =>
    decide (decode r.1 ⟨r.2.1, r.2.2.1, true⟩ = .ok r.2.2.2 r.2.2.1 ∧
      decode r.1 ⟨r.2.1 + 2 ^ r.2.2.1 * 0xA5A5, r.2.2.1 + 16, false⟩ = .ok r.2.2.2 r.2.2.1)
/-- R112, R113, R222. -/
theorem test_decode_stream_header :
    reads
     ([(Ctx.streamHeader false, 0b0, 1, Instr.wbits16),
       (Ctx.streamHeader false, 0b0011, 4, Instr.wbits18),
       (Ctx.streamHeader false, 0b0101, 4, Instr.wbits19),
       (Ctx.streamHeader false, 0b0111, 4, Instr.wbits20),
       (Ctx.streamHeader false, 0b1001, 4, Instr.wbits21),
       (Ctx.streamHeader false, 0b1011, 4, Instr.wbits22),
       (Ctx.streamHeader false, 0b1101, 4, Instr.wbits23),
       (Ctx.streamHeader false, 0b1111, 4, Instr.wbits24),
       (Ctx.streamHeader false, 0b0000001, 7, Instr.wbits17),
       (Ctx.streamHeader false, 0b0100001, 7, Instr.wbits10),
       (Ctx.streamHeader false, 0b0110001, 7, Instr.wbits11),
       (Ctx.streamHeader false, 0b1000001, 7, Instr.wbits12)] ++
      [(Ctx.streamHeader false, 0b1010001, 7, Instr.wbits13),
       (Ctx.streamHeader false, 0b1100001, 7, Instr.wbits14),
       (Ctx.streamHeader false, 0b1110001, 7, Instr.wbits15),
       (Ctx.streamHeader true, 0b0011, 4, Instr.wbits18),
       (Ctx.streamHeader true, 0b01111000010001, 14, Instr.wbitsLarge 30),
       (Ctx.streamHeader false, 0b0010001, 7, Instr.wbitsReserved)]) = true := by
  decide +kernel

/-- R114, R123, R118, R126: fixed fields, first bit rightmost. -/
theorem test_decode_metablock_header :
    reads
     ([(Ctx.isLast, 0b0, 1, Instr.islast false),
       (Ctx.isLast, 0b1, 1, Instr.islast true),
       (Ctx.isLastEmpty, 0b0, 1, Instr.islastempty false),
       (Ctx.isLastEmpty, 0b1, 1, Instr.islastempty true),
       (Ctx.isUncompressed, 0b0, 1, Instr.isuncompressed false),
       (Ctx.isUncompressed, 0b1, 1, Instr.isuncompressed true),
       (Ctx.imtf, 0b0, 1, Instr.imtf false),
       (Ctx.imtf, 0b1, 1, Instr.imtf true),
       (Ctx.rlemaxflag, 0b0, 1, Instr.rlemaxflag false),
       (Ctx.rlemaxflag, 0b1, 1, Instr.rlemaxflag true),
       (Ctx.treeselect, 0b0, 1, Instr.treeselect false),
       (Ctx.treeselect, 0b1, 1, Instr.treeselect true)] ++
      [(Ctx.mnibbles, 0b00, 2, Instr.mnibbles_0),
       (Ctx.mnibbles, 0b01, 2, Instr.mnibbles_1),
       (Ctx.mnibbles, 0b10, 2, Instr.mnibbles_2),
       (Ctx.mnibbles, 0b11, 2, Instr.mnibbles_3),
       (Ctx.mskipbytes, 0b00, 2, Instr.mskipbytes_0),
       (Ctx.mskipbytes, 0b01, 2, Instr.mskipbytes_1),
       (Ctx.mskipbytes, 0b10, 2, Instr.mskipbytes_2),
       (Ctx.mskipbytes, 0b11, 2, Instr.mskipbytes_3),
       (Ctx.reserved, 0b0, 1, Instr.reserved),
       (Ctx.mlen 4, 0b1101001110100111, 16, Instr.mlenm1_4n 54183),
       (Ctx.mlen 5, 0b11010011101001110100, 20, Instr.mlenm1_5n 866932),
       (Ctx.mlen 6, 0b110100111010011101001110, 24, Instr.mlenm1_6n 13870926)] ++
      [(Ctx.mskiplen 1, 0b11010011, 8, Instr.mskiplenm1_1b 211),
       (Ctx.mskiplen 2, 0b1101001110100111, 16, Instr.mskiplenm1_2b 54183),
       (Ctx.mskiplen 3, 0b110100111010011101001110, 24, Instr.mskiplenm1_3b 13870926),
       (Ctx.pad 0, 0, 0, Instr.pad 0),
       (Ctx.finalPad 0, 0, 0, Instr.finalpad 0),
       (Ctx.pad 7, 0b0000000, 7, Instr.pad 7),
       (Ctx.finalPad 7, 0b0000000, 7, Instr.finalpad 7),
       (Ctx.raw, 0b01100001, 8, Instr.raw 0x61),
       (Ctx.skip, 0b10100011, 8, Instr.skip 0xA3)]) = true := by
  decide +kernel

/-- R116 with its examples, R122, R123. -/
theorem test_decode_partition :
    reads
     ([(Ctx.varlen8, 0b0, 1, Instr.varlen8_1),
       (Ctx.varlen8, 0b0001, 4, Instr.varlen8_2),
       (Ctx.varlen8, 0b00011, 5, Instr.varlen8_n1 0),
       (Ctx.varlen8, 0b10011, 5, Instr.varlen8_n1 1),
       (Ctx.varlen8, 0b110101, 6, Instr.varlen8_n2 3),
       (Ctx.varlen8, 0b1100111, 7, Instr.varlen8_n3 6),
       (Ctx.varlen8, 0b11011001, 8, Instr.varlen8_n4 13),
       (Ctx.varlen8, 0b110101011, 9, Instr.varlen8_n5 26),
       (Ctx.varlen8, 0b1101001101, 10, Instr.varlen8_n6 52),
       (Ctx.varlen8, 0b11010011111, 11, Instr.varlen8_n7 105),
       (Ctx.nbltypes 5, 0, 0, Instr.nbltypes 5),
       (Ctx.ntrees 256, 0, 0, Instr.ntrees 256)] ++
      [(Ctx.npostfix, 0b10, 2, Instr.npostfix 2),
       (Ctx.ndirecthi, 0b1101, 4, Instr.ndirecthi 13),
       (Ctx.rlemaxm1, 0b0101, 4, Instr.rlemaxm1 5),
       (Ctx.cmode, 0b00, 2, Instr.cmodeLsb6),
       (Ctx.cmode, 0b01, 2, Instr.cmodeMsb6),
       (Ctx.cmode, 0b10, 2, Instr.cmodeUtf8),
       (Ctx.cmode, 0b11, 2, Instr.cmodeSigned)]) = true := by
  decide +kernel

/-- R117 to R119. -/
theorem test_decode_prefix_code :
    reads
     ([(Ctx.hskip, 0b00, 2, Instr.hskip_0),
       (Ctx.hskip, 0b01, 2, Instr.hskip_1),
       (Ctx.hskip, 0b10, 2, Instr.hskip_2),
       (Ctx.hskip, 0b11, 2, Instr.hskip_3),
       (Ctx.nsymm1, 0b00, 2, Instr.nsymm1_0),
       (Ctx.nsymm1, 0b01, 2, Instr.nsymm1_1),
       (Ctx.nsymm1, 0b10, 2, Instr.nsymm1_2),
       (Ctx.nsymm1, 0b11, 2, Instr.nsymm1_3),
       (Ctx.symbol 8, 0b01100001, 8, Instr.symbol 0x61),
       (Ctx.symbol 11, 0b10000000011, 11, Instr.symbol 1027),
       (Ctx.cllen, 0b00, 2, Instr.cllen_0),
       (Ctx.cllen, 0b0111, 4, Instr.cllen_1)] ++
      [(Ctx.cllen, 0b011, 3, Instr.cllen_2),
       (Ctx.cllen, 0b10, 2, Instr.cllen_3),
       (Ctx.cllen, 0b01, 2, Instr.cllen_4),
       (Ctx.cllen, 0b1111, 4, Instr.cllen_5)]) = true := by
  decide +kernel

/-- R120, the symbol's word being `1`. -/
theorem test_decode_code_lengths :
    reads
     ([(Ctx.clsym (oneBit 0), 0b1, 1, Instr.clsym_0),
       (Ctx.clsym (oneBit 1), 0b1, 1, Instr.clsym_1),
       (Ctx.clsym (oneBit 2), 0b1, 1, Instr.clsym_2),
       (Ctx.clsym (oneBit 3), 0b1, 1, Instr.clsym_3),
       (Ctx.clsym (oneBit 4), 0b1, 1, Instr.clsym_4),
       (Ctx.clsym (oneBit 5), 0b1, 1, Instr.clsym_5),
       (Ctx.clsym (oneBit 6), 0b1, 1, Instr.clsym_6),
       (Ctx.clsym (oneBit 7), 0b1, 1, Instr.clsym_7),
       (Ctx.clsym (oneBit 8), 0b1, 1, Instr.clsym_8),
       (Ctx.clsym (oneBit 9), 0b1, 1, Instr.clsym_9),
       (Ctx.clsym (oneBit 10), 0b1, 1, Instr.clsym_10),
       (Ctx.clsym (oneBit 11), 0b1, 1, Instr.clsym_11)] ++
      [(Ctx.clsym (oneBit 12), 0b1, 1, Instr.clsym_12),
       (Ctx.clsym (oneBit 13), 0b1, 1, Instr.clsym_13),
       (Ctx.clsym (oneBit 14), 0b1, 1, Instr.clsym_14),
       (Ctx.clsym (oneBit 15), 0b1, 1, Instr.clsym_15),
       (Ctx.clsym (oneBit 16), 0b101, 3, Instr.clsym_16 2),
       (Ctx.clsym (oneBit 17), 0b1101, 4, Instr.clsym_17 6)]) = true := by
  decide +kernel

/-- R123. -/
theorem test_decode_context_map :
    reads
     ([(Ctx.cmap (oneBit 0) 3, 0b1, 1, Instr.cmapZero),
       (Ctx.cmap (oneBit 1) 16, 0b11, 2, Instr.cmapRun1 1),
       (Ctx.cmap (oneBit 2) 16, 0b111, 3, Instr.cmapRun2 3),
       (Ctx.cmap (oneBit 3) 16, 0b1101, 4, Instr.cmapRun3 6),
       (Ctx.cmap (oneBit 4) 16, 0b11011, 5, Instr.cmapRun4 13),
       (Ctx.cmap (oneBit 5) 16, 0b110101, 6, Instr.cmapRun5 26),
       (Ctx.cmap (oneBit 6) 16, 0b1101001, 7, Instr.cmapRun6 52),
       (Ctx.cmap (oneBit 7) 16, 0b11010011, 8, Instr.cmapRun7 105),
       (Ctx.cmap (oneBit 8) 16, 0b110100111, 9, Instr.cmapRun8 211),
       (Ctx.cmap (oneBit 9) 16, 0b1101001111, 10, Instr.cmapRun9 423),
       (Ctx.cmap (oneBit 10) 16, 0b11010011101, 11, Instr.cmapRun10 846),
       (Ctx.cmap (oneBit 11) 16, 0b110100111011, 12, Instr.cmapRun11 1693)] ++
      [(Ctx.cmap (oneBit 12) 16, 0b1101001110101, 13, Instr.cmapRun12 3386),
       (Ctx.cmap (oneBit 13) 16, 0b11010011101001, 14, Instr.cmapRun13 6772),
       (Ctx.cmap (oneBit 14) 16, 0b110100111010011, 15, Instr.cmapRun14 13545),
       (Ctx.cmap (oneBit 15) 16, 0b1101001110100111, 16, Instr.cmapRun15 27091),
       (Ctx.cmap (oneBit 16) 16, 0b11010011101001111, 17, Instr.cmapRun16 54183),
       (Ctx.cmap (oneBit 5) 4, 0b1, 1, Instr.cmapValue 5),
       (Ctx.cmap (oneBit 1) 0, 0b1, 1, Instr.cmapValue 1)]) = true := by
  decide +kernel

/-- R121, R240. -/
theorem test_decode_block_switch :
    reads
     ([(Ctx.btype (oneBit 0), 0b1, 1, Instr.btypePrev),
       (Ctx.btype (oneBit 1), 0b1, 1, Instr.btypeNext),
       (Ctx.btype (oneBit 2), 0b1, 1, Instr.btypeAbs 2),
       (Ctx.btype (oneBit 257), 0b1, 1, Instr.btypeAbs 257),
       (Ctx.blen (oneBit 0), 0b111, 3, Instr.blen_0 3),
       (Ctx.blen (oneBit 1), 0b111, 3, Instr.blen_1 3),
       (Ctx.blen (oneBit 2), 0b111, 3, Instr.blen_2 3),
       (Ctx.blen (oneBit 3), 0b111, 3, Instr.blen_3 3),
       (Ctx.blen (oneBit 4), 0b1101, 4, Instr.blen_4 6),
       (Ctx.blen (oneBit 5), 0b1101, 4, Instr.blen_5 6),
       (Ctx.blen (oneBit 6), 0b1101, 4, Instr.blen_6 6),
       (Ctx.blen (oneBit 7), 0b1101, 4, Instr.blen_7 6)] ++
      [(Ctx.blen (oneBit 8), 0b11011, 5, Instr.blen_8 13),
       (Ctx.blen (oneBit 9), 0b11011, 5, Instr.blen_9 13),
       (Ctx.blen (oneBit 10), 0b11011, 5, Instr.blen_10 13),
       (Ctx.blen (oneBit 11), 0b11011, 5, Instr.blen_11 13),
       (Ctx.blen (oneBit 12), 0b110101, 6, Instr.blen_12 26),
       (Ctx.blen (oneBit 13), 0b110101, 6, Instr.blen_13 26),
       (Ctx.blen (oneBit 14), 0b110101, 6, Instr.blen_14 26),
       (Ctx.blen (oneBit 15), 0b110101, 6, Instr.blen_15 26),
       (Ctx.blen (oneBit 16), 0b1101001, 7, Instr.blen_16 52),
       (Ctx.blen (oneBit 17), 0b1101001, 7, Instr.blen_17 52),
       (Ctx.blen (oneBit 18), 0b11010011, 8, Instr.blen_18 105),
       (Ctx.blen (oneBit 19), 0b110100111, 9, Instr.blen_19 211)] ++
      [(Ctx.blen (oneBit 20), 0b1101001111, 10, Instr.blen_20 423),
       (Ctx.blen (oneBit 21), 0b11010011101, 11, Instr.blen_21 846),
       (Ctx.blen (oneBit 22), 0b110100111011, 12, Instr.blen_22 1693),
       (Ctx.blen (oneBit 23), 0b1101001110101, 13, Instr.blen_23 3386),
       (Ctx.blen (oneBit 24), 0b11010011101001, 14, Instr.blen_24 6772),
       (Ctx.blen (oneBit 25), 0b1101001110100111010011101, 25, Instr.blen_25 13870926)]) = true := by
  decide +kernel

/-- R124, R280. -/
theorem test_decode_command :
    reads
     ([(Ctx.cmd (oneBit 0), 0b1, 1, Instr.cmdCell0 0),
       (Ctx.cmd (oneBit 127), 0b1, 1, Instr.cmdCell1 127),
       (Ctx.cmd (oneBit 128), 0b1, 1, Instr.cmdCell2 128),
       (Ctx.cmd (oneBit 255), 0b1, 1, Instr.cmdCell3 255),
       (Ctx.cmd (oneBit 256), 0b1, 1, Instr.cmdCell4 256),
       (Ctx.cmd (oneBit 383), 0b1, 1, Instr.cmdCell5 383),
       (Ctx.cmd (oneBit 384), 0b1, 1, Instr.cmdCell6 384),
       (Ctx.cmd (oneBit 511), 0b1, 1, Instr.cmdCell7 511),
       (Ctx.cmd (oneBit 512), 0b1, 1, Instr.cmdCell8 512),
       (Ctx.cmd (oneBit 639), 0b1, 1, Instr.cmdCell9 639),
       (Ctx.cmd (oneBit 640), 0b1, 1, Instr.cmdCell10 640)]) = true := by
  decide +kernel

/-- R281. -/
theorem test_decode_insert_length :
    reads
     ([(Ctx.insLen 0, 0, 0, Instr.inslen0 0),
       (Ctx.insLen 1, 0, 0, Instr.inslen1 0),
       (Ctx.insLen 2, 0, 0, Instr.inslen2 0),
       (Ctx.insLen 3, 0, 0, Instr.inslen3 0),
       (Ctx.insLen 4, 0, 0, Instr.inslen4 0),
       (Ctx.insLen 5, 0, 0, Instr.inslen5 0),
       (Ctx.insLen 6, 0b1, 1, Instr.inslen6 1),
       (Ctx.insLen 7, 0b1, 1, Instr.inslen7 1),
       (Ctx.insLen 8, 0b11, 2, Instr.inslen8 3),
       (Ctx.insLen 9, 0b11, 2, Instr.inslen9 3),
       (Ctx.insLen 10, 0b110, 3, Instr.inslen10 6),
       (Ctx.insLen 11, 0b110, 3, Instr.inslen11 6)] ++
      [(Ctx.insLen 12, 0b1101, 4, Instr.inslen12 13),
       (Ctx.insLen 13, 0b1101, 4, Instr.inslen13 13),
       (Ctx.insLen 14, 0b11010, 5, Instr.inslen14 26),
       (Ctx.insLen 15, 0b11010, 5, Instr.inslen15 26),
       (Ctx.insLen 16, 0b110100, 6, Instr.inslen16 52),
       (Ctx.insLen 17, 0b1101001, 7, Instr.inslen17 105),
       (Ctx.insLen 18, 0b11010011, 8, Instr.inslen18 211),
       (Ctx.insLen 19, 0b110100111, 9, Instr.inslen19 423),
       (Ctx.insLen 20, 0b1101001110, 10, Instr.inslen20 846),
       (Ctx.insLen 21, 0b110100111010, 12, Instr.inslen21 3386),
       (Ctx.insLen 22, 0b11010011101001, 14, Instr.inslen22 13545),
       (Ctx.insLen 23, 0b110100111010011101001110, 24, Instr.inslen23 13870926)]) = true := by
  decide +kernel

/-- R282. -/
theorem test_decode_copy_length :
    reads
     ([(Ctx.copyLen 0, 0, 0, Instr.copylen0 0),
       (Ctx.copyLen 1, 0, 0, Instr.copylen1 0),
       (Ctx.copyLen 2, 0, 0, Instr.copylen2 0),
       (Ctx.copyLen 3, 0, 0, Instr.copylen3 0),
       (Ctx.copyLen 4, 0, 0, Instr.copylen4 0),
       (Ctx.copyLen 5, 0, 0, Instr.copylen5 0),
       (Ctx.copyLen 6, 0, 0, Instr.copylen6 0),
       (Ctx.copyLen 7, 0, 0, Instr.copylen7 0),
       (Ctx.copyLen 8, 0b1, 1, Instr.copylen8 1),
       (Ctx.copyLen 9, 0b1, 1, Instr.copylen9 1),
       (Ctx.copyLen 10, 0b11, 2, Instr.copylen10 3),
       (Ctx.copyLen 11, 0b11, 2, Instr.copylen11 3)] ++
      [(Ctx.copyLen 12, 0b110, 3, Instr.copylen12 6),
       (Ctx.copyLen 13, 0b110, 3, Instr.copylen13 6),
       (Ctx.copyLen 14, 0b1101, 4, Instr.copylen14 13),
       (Ctx.copyLen 15, 0b1101, 4, Instr.copylen15 13),
       (Ctx.copyLen 16, 0b11010, 5, Instr.copylen16 26),
       (Ctx.copyLen 17, 0b11010, 5, Instr.copylen17 26),
       (Ctx.copyLen 18, 0b110100, 6, Instr.copylen18 52),
       (Ctx.copyLen 19, 0b1101001, 7, Instr.copylen19 105),
       (Ctx.copyLen 20, 0b11010011, 8, Instr.copylen20 211),
       (Ctx.copyLen 21, 0b110100111, 9, Instr.copylen21 423),
       (Ctx.copyLen 22, 0b1101001110, 10, Instr.copylen22 846),
       (Ctx.copyLen 23, 0b110100111010011101001110, 24, Instr.copylen23 13870926)]) = true := by
  decide +kernel

/-- R125, R303 to R306. -/
theorem test_decode_literal_and_distance :
    reads
     ([(Ctx.lit (oneBit 0x61), 0b1, 1, Instr.lit 0x61),
       (Ctx.lit (oneBit 255), 0b1, 1, Instr.lit 255),
       (Ctx.distImplicit, 0, 0, Instr.distImplicit),
       (Ctx.dist (oneBit 0) 0 0, 0b1, 1, Instr.distShort0),
       (Ctx.dist (oneBit 1) 0 0, 0b1, 1, Instr.distShort1),
       (Ctx.dist (oneBit 2) 0 0, 0b1, 1, Instr.distShort2),
       (Ctx.dist (oneBit 3) 0 0, 0b1, 1, Instr.distShort3),
       (Ctx.dist (oneBit 4) 0 0, 0b1, 1, Instr.distShort4),
       (Ctx.dist (oneBit 5) 0 0, 0b1, 1, Instr.distShort5),
       (Ctx.dist (oneBit 6) 0 0, 0b1, 1, Instr.distShort6),
       (Ctx.dist (oneBit 7) 0 0, 0b1, 1, Instr.distShort7),
       (Ctx.dist (oneBit 8) 0 0, 0b1, 1, Instr.distShort8)] ++
      [(Ctx.dist (oneBit 9) 0 0, 0b1, 1, Instr.distShort9),
       (Ctx.dist (oneBit 10) 0 0, 0b1, 1, Instr.distShort10),
       (Ctx.dist (oneBit 11) 0 0, 0b1, 1, Instr.distShort11),
       (Ctx.dist (oneBit 12) 0 0, 0b1, 1, Instr.distShort12),
       (Ctx.dist (oneBit 13) 0 0, 0b1, 1, Instr.distShort13),
       (Ctx.dist (oneBit 14) 0 0, 0b1, 1, Instr.distShort14),
       (Ctx.dist (oneBit 15) 0 0, 0b1, 1, Instr.distShort15),
       (Ctx.dist (oneBit 16) 0 1, 0b1, 1, Instr.distDirect 16),
       (Ctx.dist (oneBit 135) 3 120, 0b1, 1, Instr.distDirect 135),
       (Ctx.dist (oneBit 16) 0 0, 0b11, 2, Instr.distLong 16 1),
       (Ctx.dist (oneBit 18) 0 0, 0b101, 3, Instr.distLong 18 2),
       (Ctx.dist (oneBit 17) 0 1, 0b11, 2, Instr.distLong 17 1)] ++
      [(Ctx.dist (oneBit 63) 0 0, 0b1101001110100111010011101, 25, Instr.distLong 63 13870926)]) = true := by
  decide +kernel

/-- R360: no bits. -/
theorem test_decode_transform_0 :
    reads
     ([(Ctx.transform 0, 0, 0, Instr.transform0),
       (Ctx.transform 1, 0, 0, Instr.transform1),
       (Ctx.transform 2, 0, 0, Instr.transform2),
       (Ctx.transform 3, 0, 0, Instr.transform3),
       (Ctx.transform 4, 0, 0, Instr.transform4),
       (Ctx.transform 5, 0, 0, Instr.transform5),
       (Ctx.transform 6, 0, 0, Instr.transform6),
       (Ctx.transform 7, 0, 0, Instr.transform7),
       (Ctx.transform 8, 0, 0, Instr.transform8),
       (Ctx.transform 9, 0, 0, Instr.transform9),
       (Ctx.transform 10, 0, 0, Instr.transform10),
       (Ctx.transform 11, 0, 0, Instr.transform11)] ++
      [(Ctx.transform 12, 0, 0, Instr.transform12),
       (Ctx.transform 13, 0, 0, Instr.transform13),
       (Ctx.transform 14, 0, 0, Instr.transform14),
       (Ctx.transform 15, 0, 0, Instr.transform15),
       (Ctx.transform 16, 0, 0, Instr.transform16),
       (Ctx.transform 17, 0, 0, Instr.transform17),
       (Ctx.transform 18, 0, 0, Instr.transform18),
       (Ctx.transform 19, 0, 0, Instr.transform19),
       (Ctx.transform 20, 0, 0, Instr.transform20),
       (Ctx.transform 21, 0, 0, Instr.transform21),
       (Ctx.transform 22, 0, 0, Instr.transform22),
       (Ctx.transform 23, 0, 0, Instr.transform23)] ++
      [(Ctx.transform 24, 0, 0, Instr.transform24),
       (Ctx.transform 25, 0, 0, Instr.transform25),
       (Ctx.transform 26, 0, 0, Instr.transform26),
       (Ctx.transform 27, 0, 0, Instr.transform27),
       (Ctx.transform 28, 0, 0, Instr.transform28),
       (Ctx.transform 29, 0, 0, Instr.transform29),
       (Ctx.transform 30, 0, 0, Instr.transform30),
       (Ctx.transform 31, 0, 0, Instr.transform31),
       (Ctx.transform 32, 0, 0, Instr.transform32),
       (Ctx.transform 33, 0, 0, Instr.transform33),
       (Ctx.transform 34, 0, 0, Instr.transform34),
       (Ctx.transform 35, 0, 0, Instr.transform35)] ++
      [(Ctx.transform 36, 0, 0, Instr.transform36),
       (Ctx.transform 37, 0, 0, Instr.transform37),
       (Ctx.transform 38, 0, 0, Instr.transform38),
       (Ctx.transform 39, 0, 0, Instr.transform39),
       (Ctx.transform 40, 0, 0, Instr.transform40),
       (Ctx.transform 41, 0, 0, Instr.transform41),
       (Ctx.transform 42, 0, 0, Instr.transform42),
       (Ctx.transform 43, 0, 0, Instr.transform43),
       (Ctx.transform 44, 0, 0, Instr.transform44),
       (Ctx.transform 45, 0, 0, Instr.transform45),
       (Ctx.transform 46, 0, 0, Instr.transform46),
       (Ctx.transform 47, 0, 0, Instr.transform47)] ++
      [(Ctx.transform 48, 0, 0, Instr.transform48),
       (Ctx.transform 49, 0, 0, Instr.transform49),
       (Ctx.transform 50, 0, 0, Instr.transform50),
       (Ctx.transform 51, 0, 0, Instr.transform51),
       (Ctx.transform 52, 0, 0, Instr.transform52),
       (Ctx.transform 53, 0, 0, Instr.transform53),
       (Ctx.transform 54, 0, 0, Instr.transform54),
       (Ctx.transform 55, 0, 0, Instr.transform55),
       (Ctx.transform 56, 0, 0, Instr.transform56),
       (Ctx.transform 57, 0, 0, Instr.transform57),
       (Ctx.transform 58, 0, 0, Instr.transform58),
       (Ctx.transform 59, 0, 0, Instr.transform59)] ++
      [(Ctx.transform 60, 0, 0, Instr.transform60)]) = true := by
  decide +kernel

/-- R360: no bits. -/
theorem test_decode_transform_61 :
    reads
     ([(Ctx.transform 61, 0, 0, Instr.transform61),
       (Ctx.transform 62, 0, 0, Instr.transform62),
       (Ctx.transform 63, 0, 0, Instr.transform63),
       (Ctx.transform 64, 0, 0, Instr.transform64),
       (Ctx.transform 65, 0, 0, Instr.transform65),
       (Ctx.transform 66, 0, 0, Instr.transform66),
       (Ctx.transform 67, 0, 0, Instr.transform67),
       (Ctx.transform 68, 0, 0, Instr.transform68),
       (Ctx.transform 69, 0, 0, Instr.transform69),
       (Ctx.transform 70, 0, 0, Instr.transform70),
       (Ctx.transform 71, 0, 0, Instr.transform71),
       (Ctx.transform 72, 0, 0, Instr.transform72)] ++
      [(Ctx.transform 73, 0, 0, Instr.transform73),
       (Ctx.transform 74, 0, 0, Instr.transform74),
       (Ctx.transform 75, 0, 0, Instr.transform75),
       (Ctx.transform 76, 0, 0, Instr.transform76),
       (Ctx.transform 77, 0, 0, Instr.transform77),
       (Ctx.transform 78, 0, 0, Instr.transform78),
       (Ctx.transform 79, 0, 0, Instr.transform79),
       (Ctx.transform 80, 0, 0, Instr.transform80),
       (Ctx.transform 81, 0, 0, Instr.transform81),
       (Ctx.transform 82, 0, 0, Instr.transform82),
       (Ctx.transform 83, 0, 0, Instr.transform83),
       (Ctx.transform 84, 0, 0, Instr.transform84)] ++
      [(Ctx.transform 85, 0, 0, Instr.transform85),
       (Ctx.transform 86, 0, 0, Instr.transform86),
       (Ctx.transform 87, 0, 0, Instr.transform87),
       (Ctx.transform 88, 0, 0, Instr.transform88),
       (Ctx.transform 89, 0, 0, Instr.transform89),
       (Ctx.transform 90, 0, 0, Instr.transform90),
       (Ctx.transform 91, 0, 0, Instr.transform91),
       (Ctx.transform 92, 0, 0, Instr.transform92),
       (Ctx.transform 93, 0, 0, Instr.transform93),
       (Ctx.transform 94, 0, 0, Instr.transform94),
       (Ctx.transform 95, 0, 0, Instr.transform95),
       (Ctx.transform 96, 0, 0, Instr.transform96)] ++
      [(Ctx.transform 97, 0, 0, Instr.transform97),
       (Ctx.transform 98, 0, 0, Instr.transform98),
       (Ctx.transform 99, 0, 0, Instr.transform99),
       (Ctx.transform 100, 0, 0, Instr.transform100),
       (Ctx.transform 101, 0, 0, Instr.transform101),
       (Ctx.transform 102, 0, 0, Instr.transform102),
       (Ctx.transform 103, 0, 0, Instr.transform103),
       (Ctx.transform 104, 0, 0, Instr.transform104),
       (Ctx.transform 105, 0, 0, Instr.transform105),
       (Ctx.transform 106, 0, 0, Instr.transform106),
       (Ctx.transform 107, 0, 0, Instr.transform107),
       (Ctx.transform 108, 0, 0, Instr.transform108)] ++
      [(Ctx.transform 109, 0, 0, Instr.transform109),
       (Ctx.transform 110, 0, 0, Instr.transform110),
       (Ctx.transform 111, 0, 0, Instr.transform111),
       (Ctx.transform 112, 0, 0, Instr.transform112),
       (Ctx.transform 113, 0, 0, Instr.transform113),
       (Ctx.transform 114, 0, 0, Instr.transform114),
       (Ctx.transform 115, 0, 0, Instr.transform115),
       (Ctx.transform 116, 0, 0, Instr.transform116),
       (Ctx.transform 117, 0, 0, Instr.transform117),
       (Ctx.transform 118, 0, 0, Instr.transform118),
       (Ctx.transform 119, 0, 0, Instr.transform119),
       (Ctx.transform 120, 0, 0, Instr.transform120)]) = true := by
  decide +kernel

/-- R400. -/
theorem test_decode_host_command :
    reads
     ([(Ctx.hostCommand [.eof] [1, 2] 7, 0b000, 3, Instr.reset),
       (Ctx.hostCommand [.eof] [1, 2] 7, 0b001, 3, (Instr.init [.eof])),
       (Ctx.hostCommand [.eof] [1, 2] 7, 0b010, 3, Instr.enableLargeWindow),
       (Ctx.hostCommand [.eof] [1, 2] 7, 0b011, 3, Instr.enableEagerOutput),
       (Ctx.hostCommand [.eof] [1, 2] 7, 0b100, 3, (Instr.attachDictionaryChunk [1, 2])),
       (Ctx.hostCommand [.eof] [1, 2] 7, 0b101, 3, (Instr.decompress 7)),
       (Ctx.hostCommand [.eof] [1, 2] 7, 0b110, 3, Instr.close)]) = true := by
  decide +kernel

/-! ## Words that are no instruction (R113, R115, R129, R152, R157, R400) -/

theorem test_decode_rejects :
    decode (.streamHeader true) ⟨0b10010001, 64, true⟩ = .bad (.error .corruptWindowBits) ∧
    decode .reserved ⟨1, 64, true⟩ = .bad (.error .corruptMetablockLength) ∧
    decode (.pad 3) ⟨0b100, 64, true⟩ = .bad (.error .corruptPadding) ∧
    decode (.finalPad 7) ⟨0b1000000, 7, true⟩ = .bad (.error .corruptPadding) ∧
    decode .raw ⟨0, 7, true⟩ = .bad (.error .unexpectedEOF) ∧
    decode .raw ⟨0, 7, false⟩ = .need ∧
    decode .cllen ⟨0b0111, 3, true⟩ = .bad (.error .unexpectedEOF) ∧
    decode (.lit (oneBit 0x61)) ⟨1, 14, false⟩ = .need ∧
    decode (.lit (oneBit 0x61)) ⟨1, 0, true⟩ = .bad (.error .unexpectedEOF) ∧
    decode (.clsym (oneBit 16)) ⟨1, 2, true⟩ = .bad (.error .unexpectedEOF) ∧
    decode (.hostCommand [] [] 0) ⟨7, 3, true⟩ = .bad .badCommand := by
  decide +kernel

/-! ## Ill-formed terms, one for each check of `Instr.wellFormed` -/

def illFormed : List Instr :=
  [Instr.wbitsLarge 64, Instr.mlenm1_4n 65536, Instr.mlenm1_5n 1048576, Instr.mlenm1_6n 16777216] ++
  [Instr.mskiplenm1_1b 256, Instr.mskiplenm1_2b 65536, Instr.mskiplenm1_3b 16777216, Instr.pad 8, Instr.finalpad 8] ++
  [Instr.varlen8_n1 2, Instr.varlen8_n2 4, Instr.varlen8_n3 8, Instr.varlen8_n4 16, Instr.varlen8_n5 32] ++
  [Instr.varlen8_n6 64, Instr.varlen8_n7 128, Instr.nbltypes 0, Instr.nbltypes 257, Instr.ntrees 0] ++
  [Instr.ntrees 257, Instr.npostfix 4, Instr.ndirecthi 16, Instr.rlemaxm1 16, Instr.cmapValue 0, Instr.cmapValue 272] ++
  [Instr.cmapRun1 2, Instr.cmapRun2 4, Instr.cmapRun3 8, Instr.cmapRun4 16, Instr.cmapRun5 32, Instr.cmapRun6 64] ++
  [Instr.cmapRun7 128, Instr.cmapRun8 256, Instr.cmapRun9 512, Instr.cmapRun10 1024, Instr.cmapRun11 2048] ++
  [Instr.cmapRun12 4096, Instr.cmapRun13 8192, Instr.cmapRun14 16384, Instr.cmapRun15 32768] ++
  [Instr.cmapRun16 65536, Instr.symbol 2048, Instr.clsym_16 4, Instr.clsym_17 8, Instr.btypeAbs 1] ++
  [Instr.btypeAbs 258, Instr.blen_0 4, Instr.blen_1 4, Instr.blen_2 4, Instr.blen_3 4, Instr.blen_4 8] ++
  [Instr.blen_5 8, Instr.blen_6 8, Instr.blen_7 8, Instr.blen_8 16, Instr.blen_9 16, Instr.blen_10 16] ++
  [Instr.blen_11 16, Instr.blen_12 32, Instr.blen_13 32, Instr.blen_14 32, Instr.blen_15 32, Instr.blen_16 64] ++
  [Instr.blen_17 64, Instr.blen_18 128, Instr.blen_19 256, Instr.blen_20 512, Instr.blen_21 1024] ++
  [Instr.blen_22 2048, Instr.blen_23 4096, Instr.blen_24 8192, Instr.blen_25 16777216, Instr.cmdCell0 64] ++
  [Instr.cmdCell1 63, Instr.cmdCell2 192, Instr.cmdCell3 191, Instr.cmdCell4 255, Instr.cmdCell5 384] ++
  [Instr.cmdCell6 383, Instr.cmdCell7 512, Instr.cmdCell8 511, Instr.cmdCell9 640, Instr.cmdCell10 704] ++
  [Instr.inslen0 1, Instr.inslen1 1, Instr.inslen2 1, Instr.inslen3 1, Instr.inslen4 1, Instr.inslen5 1] ++
  [Instr.inslen6 2, Instr.inslen7 2, Instr.inslen8 4, Instr.inslen9 4, Instr.inslen10 8, Instr.inslen11 8] ++
  [Instr.inslen12 16, Instr.inslen13 16, Instr.inslen14 32, Instr.inslen15 32, Instr.inslen16 64] ++
  [Instr.inslen17 128, Instr.inslen18 256, Instr.inslen19 512, Instr.inslen20 1024, Instr.inslen21 4096] ++
  [Instr.inslen22 16384, Instr.inslen23 16777216, Instr.copylen0 1, Instr.copylen1 1, Instr.copylen2 1] ++
  [Instr.copylen3 1, Instr.copylen4 1, Instr.copylen5 1, Instr.copylen6 1, Instr.copylen7 1, Instr.copylen8 2] ++
  [Instr.copylen9 2, Instr.copylen10 4, Instr.copylen11 4, Instr.copylen12 8, Instr.copylen13 8] ++
  [Instr.copylen14 16, Instr.copylen15 16, Instr.copylen16 32, Instr.copylen17 32, Instr.copylen18 64] ++
  [Instr.copylen19 128, Instr.copylen20 256, Instr.copylen21 512, Instr.copylen22 1024, Instr.copylen23 16777216] ++
  [Instr.distDirect 15, Instr.distDirect 136, Instr.distLong 15 0, Instr.distLong 1128 0, Instr.distLong 16 2]

theorem test_illFormed_refused : illFormed.all (fun i => !i.wellFormed) = true := by decide +kernel

/-! ## The spec's worked examples -/

/-- R189: the tables of `[3, 3, 1, 3, 4, 4]` and `[1, 2, 3, 3]`. -/
theorem test_build_table :
    buildEntries [3, 3, 1, 3, 4, 4] 2 = [0x00010002, 0x00030003, 0x00010002, 0x00040003, 0x00010000, 0x00010001,
      0x00010003, 0x00020004, 0x00010003, 0x00020005] ∧
    buildEntries [1, 2, 3, 3] 2 = [0x00010000, 0x00020001, 0x00010000, 0x00030001, 0x00010002, 0x00010003] ∧
    buildEntries [1, 2, 3, 3] 3 = [0x00010000, 0x00020001, 0x00010000, 0x00030002, 0x00010000, 0x00020001,
      0x00010000, 0x00030003] := by
  decide +kernel

/-- R189: the table of the 16 lengths 1 to 15 and 15 at root width 8. -/
theorem test_build_long_table :
    (fun T : List Entry => (T.length, T[127]?, T[255]?, (T.drop 256).take 8))
      (buildEntries [1, 2, 3, 4, 5, 6, 7, 8, 9, 10, 11, 12, 13, 14, 15, 15] 8) =
    (384, some 0x00080007, some 0x000F0001,
      [0x00010008, 0x00020009, 0x00010008, 0x0003000A, 0x00010008, 0x00020009, 0x00010008, 0x0004000B]) := by
  decide +kernel

/-- R202 (a) to (c): the words of three simple codes. -/
theorem test_simple_codes :
    codeWord (simpleLengths [0x61] false 256) 0x61 = some (0, 0) ∧
    codeWord (simpleLengths [3, 1] false 4) 1 = some (0b0, 1) ∧
    codeWord (simpleLengths [3, 1] false 4) 3 = some (0b1, 1) ∧
    simpleLengths [5, 2, 7, 0] true 8 = [3, 0, 2, 0, 0, 1, 0, 3] ∧
    codeWord (simpleLengths [5, 2, 7, 0] true 8) 2 = some (0b01, 2) ∧
    codeWord (simpleLengths [5, 2, 7, 0] true 8) 0 = some (0b011, 3) ∧
    codeWord (simpleLengths [5, 2, 7, 0] true 8) 7 = some (0b111, 3) := by
  decide +kernel

/-- R222: a stream header read by one step. -/
theorem test_step_stream_header :
    (match step (State.reset.withFetchWord 8 0x0B) with
      | .next t => (t.st.windowBits, t.st.maxBackwardDistance, t.st.bitpos, t.st.runningState)
      | _ => (0, 0, 0, .uninitialized)) = (22, 2 ^ 22 - 16, 4, .blockStart) := by
  decide +kernel

/-- R294. -/
theorem test_context_id :
    [0, 1, 2, 3].map (fun m => contextId m 0x61 0x20) = [33, 24, 56, 26] ∧
    contextId 2 0x20 0x2C = 9 ∧ contextId 2 0xC3 0x41 = 3 ∧ contextId 3 0xC3 0x41 = 43 ∧
    [0, 1, 2, 3].map (fun m => contextId m 0xFF 0xFF) = [63, 63, 3, 63] := by
  decide +kernel

/-- R328: insert code, copy code and implicit distance of five command symbols. -/
theorem test_command_codes :
    [143, 15, 207, 160, 703].map (fun c => (insertCode c, copyCode c, implicitDistance c)) =
      [(1, 7, false), (1, 7, true), (1, 15, false), (4, 0, false), (23, 23, false)] ∧
    (tableAt insBase 23, tableAt copyBase 23, tableAt copyBase 15, tableAt copyXbits 15) = (22594, 2118, 54, 4) := by
  decide +kernel

/-- R240, R281, R282: the closure of the length tables. -/
theorem test_length_tables :
    (List.range 25).all (fun c => tableAt blenBase (c + 1) = tableAt blenBase c + 2 ^ tableAt blenXbits c) ∧
    (List.range 23).all (fun c => tableAt insBase (c + 1) = tableAt insBase c + 2 ^ tableAt insXbits c) ∧
    (List.range 23).all (fun c => tableAt copyBase (c + 1) = tableAt copyBase c + 2 ^ tableAt copyXbits c) := by
  decide +kernel

/-- R348: the address arithmetic. -/
theorem test_static_addresses :
    (wordIndex 4 9221, transformIndex 4 9221, tableAt dOffset 4 + wordIndex 4 9221 * 4) = (5, 9, 20) ∧
    (wordIndex 24 3871, transformIndex 24 3871, tableAt dOffset 24 + wordIndex 24 3871 * 24) = (31, 120, 122760) ∧
    transformIndex 24 3872 = 121 ∧ transformIndex 4 123903 = 120 := by
  decide +kernel

/-- R364: the word `time` under nine transforms. -/
theorem test_transforms :
    [0, 1, 3, 9, 44, 49, 73, 34, 64].map (transformWord [0x74, 0x69, 0x6D, 0x65]) =
      [[0x74, 0x69, 0x6D, 0x65], [0x74, 0x69, 0x6D, 0x65, 0x20], [0x69, 0x6D, 0x65], [0x54, 0x69, 0x6D, 0x65],
       [0x54, 0x49, 0x4D, 0x45], [0x74, 0x69, 0x6D, 0x69, 0x6E, 0x67, 0x20],
       [0x20, 0x74, 0x68, 0x65, 0x20, 0x74, 0x69, 0x6D, 0x65, 0x20, 0x6F, 0x66, 0x20, 0x74, 0x68, 0x65, 0x20],
       [], []] := by
  decide +kernel

/-- R364: UTF-8 cases. -/
theorem test_transforms_utf8 :
    transformWord [0xC3, 0xA9, 0x74, 0xC3, 0xA9] 9 = [0xC3, 0x89, 0x74, 0xC3, 0xA9] ∧
    transformWord [0xC3, 0xA9, 0x74, 0xC3, 0xA9] 44 = [0xC3, 0x89, 0x54, 0xC3, 0x89] ∧
    transformWord [0xE4, 0xB8, 0xAD, 0x61] 44 = [0xE4, 0xB8, 0xA8, 0x41] ∧
    transformWord [0x61, 0x62, 0xC3] 44 = [0x41, 0x42, 0xC3] ∧
    transformWord [0x61, 0xE4, 0xB8] 44 = [0x41, 0xE4, 0xB8] := by
  decide +kernel

/-- The registers of R376: chunks `abc` and `defgh`, a command of copy length 4, distance `d` beyond an empty history. -/
def compoundAt (d : Nat) : State :=
  { State.reset with
    inCall := true
    st := { DecoderState.reset with
      runningState := .useDictionary, windowBits := 16, outCap := 10, metaBlockLength := 4
      CD := [0x61, 0x62, 0x63, 0x64, 0x65, 0x66, 0x67, 0x68], cdNumChunks := 2
      cdChunkOffsets := #v[0, 3, 8, 0, 0, 0, 0, 0, 0, 0, 0, 0, 0, 0, 0, 0], copyLength := 4, distance := d } }

/-- R376: distance 6 starts at byte 2 of chunk 0; distance 3 overflows; distance 8 starts at byte 0. -/
theorem test_compound_start :
    ((compoundAt 6).useDictionary.st.cdBrIndex, (compoundAt 6).useDictionary.st.cdBrOffset,
      (compoundAt 6).useDictionary.st.runningState, (compoundAt 6).useDictionary.st.distRing[0]) =
      (0, 2, .compoundDictionaryCopy, 6) ∧
    (compoundAt 3).useDictionary.st.runningState = .error .compoundDictionaryOverflow ∧
    ((compoundAt 8).useDictionary.st.cdBrIndex, (compoundAt 8).useDictionary.st.cdBrOffset) = (0, 0) ∧
    (compoundAt 9).st.staticReference = some 0 := by
  decide +kernel

/-- R376: the first byte of the copy is `c`, and the copy crosses into chunk 1 after it. -/
theorem test_compound_copy :
    ((compoundAt 6).useDictionary.stepCompoundCopy.st.H, (compoundAt 6).useDictionary.stepCompoundCopy.st.cdBrIndex,
      (compoundAt 6).useDictionary.stepCompoundCopy.st.cdBrOffset) = ([0x63], 1, 0) := by
  decide +kernel

/-- R254, R257, R258: the last value of the map `[1, 1, 0, 2]`, which `IMTF` makes `[1, 0, 0, 2]`; the literal context map
changes with the number of trees, at the end. -/
theorem test_context_map :
    (match exec (.cmapValue 4) { State.reset with
        st := { DecoderState.reset with
          hphase := .cmapL, hsub := 3, cmNumTrees := 3, cmRleMax := 2, cmIdx := 3, cmSize := 4
          cmMap := [(0, 1), (1, 1)], contextMapL := [(3, 9)] } } with
      | .next t =>
        match exec (.imtf true) t with
        | .next u => ((t.st.contextMapL, t.st.hsub, t.st.numLiteralTrees), u.st.contextMapL, u.st.numLiteralTrees)
        | _ => (([], 0, 0), [], 0)
      | _ => (([], 0, 0), [], 0)) = (([(3, 9)], 4, 0), [(0, 1), (3, 2)], 3) := by
  decide +kernel

/-! ## Witnesses: for each statement, a state and operands that meet its hypotheses, clause by clause -/

def inState (r : RunningState) : State := { State.reset with st := { DecoderState.reset with runningState := r } }

def inCallAt (st : DecoderState) : State := { State.reset with st := st, inCall := true }

theorem wit_InitBindsTheSource :
    (inState .uninitialized).st.runningState = .uninitialized ∧
    (0 ≤ (inState .initialized).st.runningState.tag ∧ (inState .initialized).st.runningState ≠ .uninitialized ∧
      (inState .initialized).st.runningState ≠ .closed) := by
  decide

theorem wit_ConfigurationCommands :
    (inState .initialized).st.runningState = .initialized ∧
    (∃ t, exec .enableLargeWindow (inState .initialized) = .next t) ∧
    (∃ t, exec .enableEagerOutput (inState .initialized) = .next t) ∧
    (0 ≤ (inState .finished).st.runningState.tag ∧ (inState .finished).st.runningState ≠ .initialized ∧
      (inState .finished).st.runningState ≠ .closed) :=
  ⟨rfl, ⟨_, rfl⟩, ⟨_, rfl⟩, by decide⟩

/-- An initialised session with `n` chunks attached, the last one ending at `total`. -/
def withChunks (n total : Nat) : State :=
  { State.reset with
    params := { State.reset.params with cdCap := 8 }
    st := { DecoderState.reset with
      runningState := .initialized, cdNumChunks := n, cdChunkOffsets := .replicate 16 total } }

theorem wit_AttachDictionaryChunk :
    (withChunks 15 0).st.cdNumChunks = 15 ∧
    (withChunks 14 6).params.cdCap < (withChunks 14 6).st.cdTotalSize + [1, 2, 3].length ∧
    (withChunks 14 6).st.cdNumChunks < 15 ∧
    (withChunks 14 6).st.cdTotalSize + [1, 2].length ≤ (withChunks 14 6).params.cdCap ∧
    (withChunks 14 6).st.runningState = .initialized ∧ (0 : Nat) ≠ (withChunks 14 6).st.cdNumChunks + 1 := by
  decide

theorem wit_DecompressBegins :
    (0 ≤ (inState .initialized).st.runningState.tag ∧ (inState .initialized).st.runningState ≠ .uninitialized ∧
      (inState .initialized).st.runningState ≠ .closed) ∧
    (0 ≤ (inState .finished).st.runningState.tag ∧ (inState .finished).st.runningState ≠ .uninitialized ∧
      (inState .finished).st.runningState ≠ .closed) ∧
    (inState .uninitialized).st.runningState = .uninitialized := by
  decide

theorem wit_ClosedOrFailedSession :
    (inState .closed).st.runningState = .closed ∧
    (inState (.error .readFailed)).st.runningState = .error .readFailed :=
  ⟨rfl, rfl⟩

/-- Inside a call, at the stream header, with the bytes `bs` pulled. -/
def atHeader (bs : List Byte) (eof : Bool) : State :=
  { inCallAt { DecoderState.reset with runningState := .initialized } with IN := bs, inLen := bs.length, srcEOF := eof }

theorem wit_StepRunsTheDecodedInstruction :
    ((atHeader [0x0B] false).fetch = .element (.streamHeader false) ∧
      (atHeader [0x0B] false).wantsLookahead (.streamHeader false) = false ∧
      decode (.streamHeader false) ((atHeader [0x0B] false).window (.streamHeader false)) = .ok .wbits22 4 ∧
      ∃ t, exec .wbits22 ((atHeader [0x0B] false).take (.streamHeader false) 4) = .next t) ∧
    (inCallAt { DecoderState.reset with runningState := .blockStart }).fetch = .internal .blockStart ∧
    ((atHeader [] false).fetch = .element (.streamHeader false) ∧
      decode (.streamHeader false) ((atHeader [] false).window (.streamHeader false)) = .need) ∧
    (let s := { atHeader [0x0B] false with params := { Config.Params.default with lookaheadBits := 9 } };
      s.fetch = .element (.streamHeader false) ∧ s.wantsLookahead (.streamHeader false) = true) ∧
    ((atHeader [] true).fetch = .element (.streamHeader false) ∧
      (atHeader [] true).wantsLookahead (.streamHeader false) = false ∧
      decode (.streamHeader false) ((atHeader [] true).window (.streamHeader false)) =
        .bad (.error .unexpectedEOF)) :=
  ⟨⟨rfl, rfl, by decide +kernel, _, rfl⟩, rfl, ⟨rfl, by decide +kernel⟩, ⟨rfl, rfl⟩, rfl, rfl, by decide +kernel⟩

theorem wit_PullOutcomes :
    (atHeader [] false).srcEOF = false ∧ (atHeader [] false).inCall = true ∧
    ({ atHeader [] false with source := [.bytes [7], .eof] }).source = .bytes [7] :: [.eof] ∧
    ([7] : List Byte) ≠ [] ∧ ([7] : List Byte).length ≤ (atHeader [] false).pullMax ∧
    ({ atHeader [] false with source := [.eof] }).source = .eof :: [] ∧
    ({ atHeader [] false with source := [.noData] }).source = .noData :: [] ∧
    ({ atHeader [] false with source := [.fail] }).source = .fail :: [] :=
  ⟨rfl, rfl, rfl, by decide, by decide, rfl, rfl, rfl⟩

/-- The table of a code whose one symbol is 0 (R187). -/
def zeroTable : HuffmanTable := { rootBits := 8, lengths := [1], entries := List.replicate 256 (packEntry 0 0) }

theorem zeroTable_lookup (v : Nat) : zeroTable.lookup v = some (0, 0) := by
  have h : v % 2 ^ 8 < 256 := Nat.mod_lt _ (by decide)
  have e : (List.replicate 256 (packEntry 0 0))[v % 2 ^ 8]? = some (packEntry 0 0) := by
    rw [List.getElem?_eq_getElem (by rw [List.length_replicate]; exact h), List.getElem_replicate]
  show (match (List.replicate 256 (packEntry 0 0))[v % 2 ^ 8]? with
    | none => none
    | some e => _) = _
  rw [e]
  rfl

theorem zeroTable_reads : zeroTable.Reads := by
  intro s w n h
  match s, h with
  | 0, h =>
    have h' : (some (0, 0) : Option (Nat × Nat)) = some (w, n) := h
    simp only [Option.some.injEq, Prod.mk.injEq] at h'
    obtain ⟨rfl, rfl⟩ := h'
    exact ⟨by decide, by decide, fun v _ _ => zeroTable_lookup v⟩
  | s + 1, h =>
    have h' : codeWord [1] (s + 1) = some (w, n) := h
    simp [codeWord] at h'

theorem wit_DecodeOfEncode :
    ((Ctx.lit zeroTable).TableReads ∧ encode (.lit zeroTable) (.lit 0) = some (0, 0)) ∧
    (Ctx.mnibbles.TableReads ∧ encode .mnibbles .mnibbles_3 = some (3, 2)) :=
  ⟨⟨zeroTable_reads, by decide +kernel⟩, trivial, by decide +kernel⟩

theorem wit_EveryInstructionHasAWord : (Instr.mlenm1_4n 65535).wellFormed = true := by decide

theorem wit_DecodingIsStable : decode .raw ⟨0x61, 8, false⟩ ≠ .need := by decide +kernel

/-- A byte of which all bits, all but one, and none are there; a symbol of 3 bits, of which 2 are there (R191: a code of
eight words). -/
theorem wit_DecodingStaysInTheStream :
    decode .raw ⟨0x61, 8, true⟩ = .ok (.raw 0x61) 8 ∧ (⟨0, 0, true⟩ : Window).eof = true ∧
    (decode .raw ⟨0x61, 7 + 1, true⟩ = .ok (.raw 0x61) 8 ∧ 7 < 8) ∧
    ((Ctx.raw, 8) ∈ [(Ctx.isLast, 1), (.raw, 8)] ∧ 0 < 8) ∧ (tableAt insXbits 23 = 24 ∧ 23 < 24) ∧
    (HuffmanTable.build (List.replicate 8 3) 8).lookup ((⟨0, 2, true⟩ : Window).field 0 15) = some (0, 3) ∧ 2 < 3 := by
  decide +kernel

/-- R452: fields, a symbol and the extra bits of one, cut off by the end of the stream. -/
theorem test_unexpected_eof :
    decode (.streamHeader false) ⟨0b001, 3, true⟩ = .bad (.error .unexpectedEOF) ∧
    decode (.pad 3) ⟨0, 2, true⟩ = .bad (.error .unexpectedEOF) ∧
    decode (.blen (.build (List.replicate 26 5) 8)) ⟨0, 4, true⟩ = .bad (.error .unexpectedEOF) ∧
    decode .varlen8 ⟨0b1011, 4, true⟩ = .bad (.error .unexpectedEOF) := by
  decide +kernel

theorem wit_StreamHeaderRows :
    wbitsInstr 10 = some .wbits10 ∧ wbitsInstr 24 = some .wbits24 ∧ (10 ≤ 10 ∧ 10 ≤ 30) ∧ (10 ≤ 30 ∧ 30 ≤ 30) ∧
    (9 < 10 ∨ 30 < 9) ∧ (31 < 10 ∨ 30 < 31) ∧
    ((atHeader [] true).inCall = true ∧ (atHeader [] true).st.runningState = .initialized) ∧
    (7 ≤ (⟨0x11, 7, true⟩ : Window).avail ∧ (⟨0x11, 7, true⟩ : Window).field 0 7 = 0b0010001) ∧
    (8 ≤ (⟨0x91, 8, true⟩ : Window).avail ∧ (⟨0x91, 8, true⟩ : Window).field 0 7 = 0b0010001 ∧
      (⟨0x91, 8, true⟩ : Window).field 7 1 = 1) ∧
    (14 ≤ (⟨0x1E11, 14, true⟩ : Window).avail ∧ (⟨0x1E11, 14, true⟩ : Window).field 0 7 = 0b0010001 ∧
      (⟨0x1E11, 14, true⟩ : Window).field 7 1 = 0) := by
  decide

/-- R113, R220, R402: the header the engine accepts is the configured one. -/
theorem test_large_window_header :
    (atHeader [] true).fetch = .element (.streamHeader false) ∧
    (inCallAt { DecoderState.reset with runningState := .initialized, cfgLargeWindow := true }).fetch =
      .element (.streamHeader true) := by
  decide

/-- In a meta-block header, at the field `f`, the cursor in the middle of a byte. -/
def inHeader (f : Field) : DecoderState :=
  { DecoderState.reset with runningState := .metablockHeader, field := f, bitpos := 3 }

/-- Each field of a header, and a RESERVED bit of 0 and of 1. -/
theorem wit_MetablockHeaderRows :
    (inCallAt (inHeader .start)).inCall = true ∧ (inHeader .start).runningState = .metablockHeader ∧
    ((Field.start, Ctx.isLast) ∈ [(Field.start, Ctx.isLast), (.mskipbytes, .mskipbytes)]) ∧
    ((inHeader .mskipbytes).field, Ctx.mskipbytes) ∈ [(Field.start, Ctx.isLast), (.mskipbytes, .mskipbytes)] ∧
    (1 ≤ (⟨0, 1, true⟩ : Window).avail ∧ (⟨0, 1, true⟩ : Window).field 0 1 = 0) ∧
    (1 ≤ (⟨1, 1, true⟩ : Window).avail ∧ (⟨1, 1, true⟩ : Window).field 0 1 ≠ 0) := by
  decide

theorem wit_MetablockLengthRows :
    State.reset.st.isLast = false ∧ (({ DecoderState.reset with isLast := true } : DecoderState).isLast = true) ∧
    ((inCallAt (inHeader (.mlen 4))).inCall = true ∧ (inHeader (.mlen 4)).runningState = .metablockHeader ∧
      (inHeader (.mlen 4)).field = .mlen 4 ∧ (inHeader (.mskiplen 3)).field = .mskiplen 3) ∧
    (2 ^ 16 ≤ 65536 ∧ 65535 < 2 ^ 16) ∧ (2 ^ 20 ≤ 1048576 ∧ 1048575 < 2 ^ 20) ∧ (2 ^ 8 ≤ 256 ∧ 255 < 2 ^ 8) := by
  decide

theorem wit_PaddingRows :
    3 ≤ (⟨0, 3, true⟩ : Window).avail ∧
    ((inCallAt (inHeader .pad)).inCall = true ∧ (inHeader .pad).runningState = .metablockHeader ∧
      (inHeader .pad).field = .pad) ∧
    ((inCallAt { inHeader .start with runningState := .finished }).inCall = true ∧
      ({ inHeader .start with runningState := .finished } : DecoderState).field = .start) := by
  decide

/-- R157: from bit 3 of a byte the padding has 5 bits. -/
theorem test_padding_width : (inCallAt (inHeader .pad)).fetch = .element (.pad 5) := by decide

/-- A raw byte to come; the end of a metadata meta-block. -/
theorem wit_RawAndSkippedBytes :
    (let s := inCallAt { DecoderState.reset with runningState := .uncompressed, metaBlockLength := 1 };
      s.inCall = true ∧ s.st.runningState = .uncompressed ∧ s.st.metaBlockLength ≠ 0 ∧ s.st.bitpos % 8 = 0) ∧
    (let s := inCallAt { DecoderState.reset with runningState := .metadata };
      s.inCall = true ∧ s.st.runningState = .metadata ∧ s.st.metaBlockLength = 0) := by
  decide

/-- In the compressed header, phase `p`, with the parameters of R242 set. -/
def inPhase (p : HPhase) : DecoderState :=
  { DecoderState.reset with
    runningState := .metablockHuffmanData, hphase := p, isLargeWindow := true, npostfix := 3
    pcAlphaMax := 26, pcAlphaLimit := 26 }

/-- What every clause on the compressed header asks of a state inside a call in phase `p`. -/
theorem inPhase_fetches (p : HPhase) :
    (inCallAt (inPhase p)).inCall = true ∧ (inPhase p).runningState = .metablockHuffmanData ∧
    (inPhase p).pcActive = false ∧ (inPhase p).hphase = p ∧ (inPhase p).hsub = 0 ∧ (inPhase p).field = .start :=
  ⟨rfl, rfl, rfl, rfl, rfl, rfl⟩

/-- Where the fields of the compressed header are read: the rows `inPhase_fetches` does not name, and a count of types,
the first count of a partition, an entry of a map. -/
theorem wit_compressed_header_fields :
    ({ inPhase .partL with field := .varlenResult 256 } : DecoderState).field = .varlenResult 256 ∧
    ({ inPhase .distParams with field := .ndirecthi } : DecoderState).field = .ndirecthi ∧
    ({ inPhase .cmapL with hsub := 1, field := .rlemaxm1 } : DecoderState).hsub = 1 ∧
    ({ inPhase .cmapL with hsub := 1, field := .rlemaxm1 } : DecoderState).field = .rlemaxm1 ∧
    (({ inPhase .cmapL with hsub := 3 } : DecoderState).hsub = 3 ∧
      ({ inPhase .cmapL with hsub := 3 } : DecoderState).field = .start) ∧
    ({ inPhase .cmapD with hsub := 4 } : DecoderState).hsub = 4 ∧
    (({ inPhase .partI with hsub := 3 } : DecoderState).hsub = 3 ∧
      ({ inPhase .partI with hsub := 3 } : DecoderState).hphase = .partI) :=
  ⟨rfl, rfl, rfl, rfl, ⟨rfl, rfl⟩, rfl, rfl, rfl⟩

/-- R238, R254: the first count of a partition with the category's own tree, a map entry with the map's table. -/
theorem test_compressed_header_tables :
    (inCallAt { inPhase .partI with hsub := 3, blockLenTree := ⟨zeroTable, oneBit 7, zeroTable⟩ }).fetch =
      .element (.blen (oneBit 7)) ∧
    (inCallAt { inPhase .cmapD with hsub := 3, cmTree := oneBit 7, cmRleMax := 9 }).fetch =
      .element (.cmap (oneBit 7) 9) := by
  decide +kernel

theorem wit_PartitionRows :
    varlen8Instr 1 0 = some (.varlen8_n1 0) ∧ varlen8Instr 7 127 = some (.varlen8_n7 127) ∧
    (inPhase .cmapL).hphase = .cmapL ∧ (inPhase .cmapD).hphase = .cmapD ∧ 256 ≠ 1 ∧
    (inPhase .cmapL).cmMap.wf ∧ (inPhase .cmapL).contextMapL.wf ∧ (inPhase .cmapL).contextMapD.wf := by
  decide

theorem wit_DistanceParameterRows :
    DecoderState.reset.isLargeWindow = false ∧ (inPhase .distParams).isLargeWindow = true ∧
    (inPhase .distParams).npostfix < 4 ∧ 15 < 16 := by
  decide

theorem wit_ContextModeRows :
    [Instr.cmodeLsb6, Instr.cmodeMsb6, Instr.cmodeUtf8, Instr.cmodeSigned][3]? = some .cmodeSigned ∧
    ({ inPhase .ctxModes with numBlockTypes := ⟨2, 1, 1⟩ } : DecoderState).hidx + 1 < 2 ∧
    (inPhase .ctxModes).numBlockTypes.L ≤ (inPhase .ctxModes).hidx + 1 := by
  decide

theorem wit_ContextMapRows :
    cmapRunInstr 1 0 = some (.cmapRun1 0) ∧ cmapRunInstr 16 65535 = some (.cmapRun16 65535) ∧
    (62 + (2 ^ 1 + 0) ≤ 64 ∧ 64 < 63 + (2 ^ 1 + 0)) ∧
    ({ inPhase .cmapL with cmIdx := 62, cmSize := 64 } : DecoderState).cmIdx + (2 ^ 1 + 0) ≤ 64 ∧
    (inPhase .cmapL).hphase = .cmapL ∧ (inPhase .cmapD).hphase = .cmapD := by
  decide

/-- The prefix-code reader at phase `ph` and field `f`, over 704 symbols. -/
def codeAt (ph : PcPhase) (f : Field) : DecoderState :=
  { inPhase .treesI with pcActive := true, pcPhase := ph, field := f, pcAlphaMax := 704, pcAlphaLimit := 704 }

/-- What every clause on the prefix-code reader asks, and the width of a symbol of 704, and of 256. -/
theorem wit_prefix_code_fetches (ph : PcPhase) (f : Field) :
    ((inCallAt (codeAt ph f)).inCall = true ∧ (codeAt ph f).runningState = .metablockHuffmanData ∧
      (codeAt ph f).pcActive = true ∧ (codeAt ph f).pcPhase = ph ∧ (codeAt ph f).field = f) ∧
    (2 ≤ (codeAt ph f).pcAlphaMax ∧ (codeAt ph f).pcAlphaMax ≤ 2 ^ 10 ∧ 2 ^ 10 < 2 * (codeAt ph f).pcAlphaMax) ∧
    (2 ≤ 256 ∧ 256 ≤ 2 ^ 8 ∧ 2 ^ 8 < 2 * 256) :=
  ⟨⟨rfl, rfl, rfl, rfl, rfl⟩, (by decide : 2 ≤ 704 ∧ 704 ≤ 2 ^ 10 ∧ 2 ^ 10 < 2 * 704), by decide⟩

/-- R118, R194: the width is that of `pcAlphaMax`, here 140 symbols, not of the limit, here 74. -/
theorem test_symbol_width :
    (inCallAt { codeAt .start (.symbol 2 []) with pcAlphaMax := 140, pcAlphaLimit := 74 }).fetch =
      .element (.symbol 8) := by
  decide

theorem wit_PrefixCodeStartRows :
    [Instr.hskip_0, Instr.hskip_1, Instr.hskip_2, Instr.hskip_3][1]? = some .hskip_1 ∧
    [Instr.hskip_0, Instr.hskip_1, Instr.hskip_2, Instr.hskip_3][3]? = some .hskip_3 ∧
    [Instr.nsymm1_0, Instr.nsymm1_1, Instr.nsymm1_2, Instr.nsymm1_3][3]? = some .nsymm1_3 := by
  decide

theorem wit_SimpleCodeRows :
    (({ inPhase .partL with field := .symbol 2 [] } : DecoderState).field = .symbol 2 [] ∧
      ([] : List Nat).length + 1 < 2) ∧
    (({ inPhase .partL with field := .symbol 4 [1, 2, 3] } : DecoderState).field = .symbol 4 [1, 2, 3] ∧
      [1, 2, 3].length + 1 = 4) ∧
    (({ inPhase .partL with field := .symbol 2 [25] } : DecoderState).field = .symbol 2 [25] ∧
      2 = ([25] ++ [24]).length ∧ (∀ x ∈ [25] ++ [24], x < (inPhase .partL).pcAlphaLimit) ∧ ([25] ++ [24]).Nodup) ∧
    (∃ x ∈ [25] ++ [26], (inPhase .partL).pcAlphaLimit ≤ x) ∧
    ((∀ x ∈ [25] ++ [25], x < (inPhase .partL).pcAlphaLimit) ∧ ¬ ([25] ++ [25]).Nodup) ∧
    (({ inPhase .partL with field := .treeSelect [0, 1, 2, 25] } : DecoderState).field = .treeSelect [0, 1, 2, 25] ∧
      (∀ x ∈ [0, 1, 2, 25], x < (inPhase .partL).pcAlphaLimit) ∧ [0, 1, 2, 25].Nodup) := by
  refine ⟨⟨rfl, by decide⟩, ⟨rfl, by decide⟩, ⟨rfl, by decide, by decide, by decide⟩, by decide, by decide, rfl,
    by decide, by decide⟩

theorem wit_SimpleCodesAreComplete :
    ([3, 1].Nodup ∧ (∀ x ∈ [3, 1], x < 4) ∧ [3, 1].length = 2) ∧
    ([5, 2, 7, 0].Nodup ∧ (∀ x ∈ [5, 2, 7, 0], x < 8) ∧ [5, 2, 7, 0].length = 4) ∧
    ([255].Nodup ∧ (∀ x ∈ [255], x < 256) ∧ [255].length = 1) ∧
    ([0, 2, 1].Nodup ∧ (∀ x ∈ [0, 2, 1], x < 3) ∧ [0, 2, 1].length = 3) := by
  decide

/-- The code-length-code lengths at position `idx` with `space` left and `num` codes read. -/
def clAt (idx : Nat) (space : Int) (num : Nat) : State :=
  inCallAt { inPhase .partL with pcActive := true, pcPhase := .clLengths, clIdx := idx, clSpace := space, clNum := num }

theorem wit_CodeLengthCodeRows :
    [Instr.cllen_0, Instr.cllen_1, Instr.cllen_2, Instr.cllen_3, Instr.cllen_4, Instr.cllen_5][1]? = some .cllen_1 ∧
    (0 < (clAt 0 32 0).st.clSpace - (32 / 2 ^ 1 : Nat) ∧ (clAt 0 32 0).st.clIdx + 1 ≠ 18) ∧
    ((clAt 1 16 1).st.clSpace - (32 / 2 ^ 1 : Nat) = 0) ∧
    ((clAt 1 8 2).st.clSpace - (32 / 2 ^ 1 : Nat) ≤ 0 ∧ (clAt 1 8 2).st.clSpace - (32 / 2 ^ 1 : Nat) ≠ 0 ∧
      (clAt 1 8 2).st.clNum + 1 ≠ 1) ∧
    ((clAt 17 32 0).st.clIdx + 1 = 18 ∧ (clAt 17 32 0).st.clNum + 1 = 1) := by
  decide

theorem wit_SymbolLengthRows :
    clsymInstr 15 = some .clsym_15 ∧
    (24 + (0 + 0 + 3 - 0) > 26 ∧ 23 + (0 + 0 + 3 - 0) ≤ 26) ∧
    ((0 : Int) < 32768 - (32768 / 2 ^ 1 : Nat) ∧ (16384 : Int) - (32768 / 2 ^ 1 : Nat) = 0 ∧
      (8192 : Int) - (32768 / 2 ^ 1 : Nat) ≤ 0 ∧ (8192 : Int) - (32768 / 2 ^ 1 : Nat) ≠ 0) ∧
    ((if (inPhase .partL).repeatCodeLen = 0 then (inPhase .partL).repeatCount else 0) = 0) := by
  decide

theorem wit_FinishedCodeGoesToItsPhase :
    (inPhase .partL).hphase = .partL ∧ (inPhase .cmapD).hphase = .cmapD ∧ (inPhase .treesL).hphase = .treesL ∧
    (inPhase .treesI).hphase = .treesI ∧ (inPhase .treesD).hphase = .treesD ∧
    ({ inPhase .partL with hsub := 1 } : DecoderState).hsub = 1 ∧
    ({ inPhase .partL with hsub := 2 } : DecoderState).hsub = 2 := by
  decide

theorem wit_TableReadsItsCode :
    [3, 3, 1, 3, 4, 4].length ≤ 1128 ∧ (∀ l ∈ [3, 3, 1, 3, 4, 4], l ≤ 15) ∧ completeCode [3, 3, 1, 3, 4, 4] = true ∧
    (∀ l ∈ [0, 0, 15], l ≤ 15) ∧ usedSymbols [0, 0, 15] = 1 := by
  decide

/-- In the command loop, at field `f`, with two block types in each category. -/
def inLoop (r : RunningState) (f : Field) : DecoderState :=
  { DecoderState.reset with
    runningState := r, field := f, hphase := .finalize, numBlockTypes := ⟨2, 2, 2⟩, numLiteralTrees := 1
    numDistTrees := 1, windowBits := 16, maxBackwardDistance := 65520
    metaBlockLength := 10, insertLength := 3, copyLength := 4, outCap := 100 }

theorem wit_BlockSwitchRows :
    blenInstr 0 0 = some (.blen_0 0) ∧ blenInstr 25 16777215 = some (.blen_25 16777215) ∧
    (inLoop .mainLoop (.blockCount 0)).field = .blockCount 0 ∧ (inLoop .mainLoop (.blockCount 0)).cat = .I ∧
    (inLoop .insertLoop (.blockCount 1)).cat = .L ∧
    ({ inLoop .insertLoop (.blockCount 3) with j := 3 } : DecoderState).insertLength ≤ 3 ∧
    (inCallAt (inLoop .mainLoop (.blockCount 0))).inCall = true ∧ (inPhase .partD).field = .start ∧ (inPhase .partD).cat = .D := by
  decide

theorem wit_CommandRows :
    cmdInstr 0 = some (.cmdCell0 0) ∧ cmdInstr 703 = some (.cmdCell10 703) ∧ inslenInstr 23 0 = some (.inslen23 0) ∧
    copylenInstr 0 0 = some (.copylen0 0) ∧ copylenInstr 23 1 = some (.copylen23 1) ∧
    (inLoop .mainLoop .copyLen).insertLength ≤ (inLoop .mainLoop .copyLen).metaBlockLength ∧
    ({ inLoop .mainLoop .copyLen with insertLength := 11 } : DecoderState).metaBlockLength < 11 := by
  decide

/-- MainLoop at the end of a meta-block, before a switch, and before a command. -/
theorem wit_CommandRows_fetch :
    (inCallAt (inLoop .mainLoop .start)).inCall = true ∧
    ({ inLoop .mainLoop .start with metaBlockLength := 0 } : DecoderState).metaBlockLength = 0 ∧
    ((inLoop .mainLoop .start).metaBlockLength ≠ 0 ∧ (inLoop .mainLoop .start).blockLength.I = 0 ∧
      2 ≤ (inLoop .mainLoop .start).numBlockTypes.I) ∧
    (let st := { inLoop .mainLoop .start with blockLength := ⟨1, 1, 1⟩, commandTrees := [zeroTable] };
      st.metaBlockLength ≠ 0 ∧ st.blockLength.I ≠ 0 ∧ st.commandTrees[st.blockType.I]? = some zeroTable) ∧
    (let st := { inLoop .mainLoop .start with numBlockTypes := ⟨1, 1, 1⟩ };
      st.blockLength.I = 0 ∧ st.numBlockTypes.I < 2) :=
  ⟨rfl, rfl, by decide, ⟨by decide, by decide, rfl⟩, by decide⟩

/-- In InsertLoop, the last bytes `,` and then ` `, block type 1 of mode UTF8; the maps name tree 1 at context 9 (R294) and,
for distances, at context 2. -/
def atTree : DecoderState :=
  { inLoop .insertLoop .start with
    blockType := ⟨1, 0, 1⟩, blockLength := ⟨5, 5, 5⟩, contextModes := [(1, 2)], contextMapL := [(73, 1)]
    contextMapD := [(6, 1)], distContext := 2, H := [0x2C, 0x20], pos := 2, RB := [(0, 0x2C), (1, 0x20)]
    literalTrees := [zeroTable, oneBit 7], distanceTrees := [zeroTable, oneBit 7] }

/-- R291, R292, R294: the literal's tree, the last byte first; R301: the distance's. -/
theorem test_trees :
    (inCallAt atTree).fetch = .element (.lit (oneBit 7)) ∧
    (inCallAt { atTree with j := 3 }).fetch = .element (.dist (oneBit 7) 0 0) := by
  decide +kernel

/-- InsertLoop before a switch and before a literal, with two bytes of output and with none. -/
theorem wit_LiteralRow :
    (inCallAt atTree).inCall = true ∧ atTree.j < atTree.insertLength ∧
    ((inLoop .insertLoop .start).blockLength.L = 0 ∧ 2 ≤ (inLoop .insertLoop .start).numBlockTypes.L) ∧
    (atTree.blockLength.L ≠ 0 ∧
      atTree.literalTrees[(atTree.contextMapL.read (64 * 1 + contextId 2 0x20 0x2C)).toNat]? = some (oneBit 7)) ∧
    (let st := { atTree with numBlockTypes := ⟨1, 1, 1⟩, blockLength := ⟨0, 0, 0⟩, pos := 0 };
      st.numBlockTypes.L < 2 ∧ st.pos < 1 ∧
        st.literalTrees[(st.contextMapL.read (64 * 1 + contextId 2 0 0)).toNat]? = some zeroTable) :=
  ⟨rfl, by decide, by decide, ⟨by decide, by decide +kernel⟩, by decide, by decide, by decide +kernel⟩

/-- InsertLoop after its literals: the end of the meta-block, an implicit distance, a switch, a distance. -/
theorem wit_DistanceRows_fetch :
    (inCallAt { atTree with j := 3 }).inCall = true ∧ ({ atTree with j := 3 } : DecoderState).insertLength ≤ 3 ∧
    ({ atTree with metaBlockLength := 0 } : DecoderState).metaBlockLength = 0 ∧
    (atTree.metaBlockLength ≠ 0 ∧ ({ atTree with distImplicit := true } : DecoderState).distImplicit = true) ∧
    (atTree.distImplicit = false ∧ (inLoop .insertLoop .start).blockLength.D = 0 ∧
      2 ≤ (inLoop .insertLoop .start).numBlockTypes.D) ∧
    (atTree.blockLength.D ≠ 0 ∧
      atTree.distanceTrees[(atTree.contextMapD.read (4 * 1 + 2)).toNat]? = some (oneBit 7)) :=
  ⟨rfl, by decide, rfl, by decide, by decide, by decide, by decide +kernel⟩

theorem wit_DistanceRows :
    distShortInstr 0 = some .distShort0 ∧ distShortInstr 15 = some .distShort15 ∧
    ((inLoop .insertLoop .start).distRing[(0 : Fin 4)] : Int) - 16 ≤ 0 ∧ 0 < (16 : Int) - 15 := by
  decide

theorem wit_ResolveOutcomes :
    (let st := { inLoop .insertLoop .start with pos := 5, distance := 6 };
      min st.pos st.maxBackwardDistance < st.distance) ∧
    (let st := { inLoop .insertLoop .start with pos := 5, distance := 5, copyLength := 11 };
      st.distance ≤ min st.pos st.maxBackwardDistance ∧ st.metaBlockLength < st.copyLength) ∧
    (let st := { inLoop .insertLoop .start with pos := 5, distance := 5, distImplicit := true };
      st.distance ≤ min st.pos st.maxBackwardDistance ∧ st.copyLength ≤ st.metaBlockLength ∧
        (st.distImplicit = true ∨ st.distSymbol = 0)) ∧
    (let st := { inLoop .insertLoop .start with pos := 5, distance := 1, distSymbol := 16 };
      st.distance ≤ min st.pos st.maxBackwardDistance ∧ st.copyLength ≤ st.metaBlockLength ∧
        st.distImplicit = false ∧ st.distSymbol ≠ 0) := by
  decide

theorem wit_DistancesBelowTheLimit :
    distAlphabetLimitOf 0x7FFFFFFC 0 (0 * 2 ^ 0) = some 74 ∧ 16 + 0 * 2 ^ 0 ≤ 73 ∧ 73 < 74 ∧
    2 ^ 29 - 1 < 2 ^ distExtraBits 0 (0 * 2 ^ 0) 73 := by
  decide +kernel

theorem wit_ContextBounds :
    (255 < 256 ∧ 0 < 256) ∧ ∀ b ∈ ([0, 1, 1, 0] : List Byte), b.toNat < 2 := by
  decide

theorem wit_CommandStep :
    (let s : State := { inCallAt { inLoop .mainLoop .start with
        blockLength := ⟨1, 1, 1⟩, commandTrees := [zeroTable] } with
        IN := List.replicate 9 0, inLen := 9 };
      s.inCall = true ∧ s.st.runningState = .mainLoop ∧ s.st.field = .start ∧ s.ckpt = none ∧
      s.params.lookaheadBits = 0 ∧ s.st.metaBlockLength ≠ 0 ∧ s.st.blockLength.I ≠ 0 ∧
      s.st.commandTrees[s.st.blockType.I]? = some zeroTable ∧
      streamValue s.IN s.st.bitpos = 0 ∧ zeroTable.lookup (0 % 2 ^ 15) = some (0, 0) ∧ 63 ≤ s.bitsHeld ∧
      tableAt insBase (insertCode 0) + 0 ≤ s.st.metaBlockLength) :=
  ⟨rfl, rfl, rfl, rfl, rfl, by decide, by decide, rfl, by decide +kernel, zeroTable_lookup 0, by decide, by decide⟩

/-- A dictionary reference at distance `d` with copy length `len`, nothing produced yet. -/
def referenceAt (d len : Nat) : State := { compoundAt d with st := { (compoundAt d).st with copyLength := len } }

theorem wit_TransformRows :
    transformInstr 0 = some .transform0 ∧ transformInstr 120 = some .transform120 ∧
    (referenceAt 9 4).st.metaBlockLength < (transformWord [1, 2, 3, 4] 1).length ∧
    (transformWord [1, 2, 3, 4] 0).length ≤ (referenceAt 9 4).st.metaBlockLength := by
  decide

theorem wit_DictionaryReferences :
    ((referenceAt 9 4).inCall = true ∧ (referenceAt 9 4).st.runningState = .useDictionary ∧
      (referenceAt 9 4).st.field = .start ∧ (referenceAt 9 4).ckpt = none) ∧
    0x7FFFFFFC < (referenceAt 0x7FFFFFFD 4).st.distance ∧
    (let s := referenceAt 9 4;
      ((s.st.distance : Int) - s.st.maxDistance - 1 - s.st.cdTotalSize = 0 ∧ s.st.distance ≤ 0x7FFFFFFC ∧
        4 ≤ s.st.copyLength ∧ s.st.copyLength ≤ 24 ∧ 0 / 2 ^ tableAt ndBits s.st.copyLength < 121)) ∧
    (3 < 4 ∧ 24 < 25 ∧ 121 ≤ 3872 / 2 ^ tableAt ndBits 24) ∧
    (let s := referenceAt 8 4;
      ((s.st.distance : Int) - s.st.maxDistance - 1 - s.st.cdTotalSize = -1 ∧
        -(-1) - 1 + s.st.copyLength ≤ (s.st.cdTotalSize : Int) ∧ s.st.copyLength ≤ s.st.metaBlockLength)) ∧
    (let s := referenceAt 8 5;
      (-(-1) - 1 + s.st.copyLength ≤ (s.st.cdTotalSize : Int) ∧ s.st.metaBlockLength < s.st.copyLength)) ∧
    (let s := referenceAt 8 9;
      (s.st.cdTotalSize : Int) < -(-1) - 1 + s.st.copyLength) := by
  decide +kernel

theorem wit_StaticWordBounds :
    (4 ≤ 4 ∧ 4 ≤ 24 ∧ 3 < 4) ∧ (4 ≤ 24 ∧ 24 ≤ 24 ∧ 23 < 24) ∧ (List.replicate 24 (0 : Byte)).length ≤ 24 := by
  decide

theorem wit_CompoundCopyReadsOn :
    (compoundAt 6).st.cdNumChunks ≤ 15 ∧ (compoundAt 6).st.cdOffset 0 = 0 ∧
    (∀ i < (compoundAt 6).st.cdNumChunks, (compoundAt 6).st.cdOffset i ≤ (compoundAt 6).st.cdOffset (i + 1)) ∧
    7 < (compoundAt 6).st.cdTotalSize := by
  decide

theorem wit_CopySteps :
    ({ inLoop .copyLoop .start with j := 4 } : DecoderState).j = 4 ∧ (inLoop .copyLoop .start).copyLength = 4 ∧
    (inLoop .copyLoop .start).j ≠ (inLoop .copyLoop .start).copyLength ∧
    (inLoop .compoundDictionaryCopy .start).cdBrCopied = (inLoop .compoundDictionaryCopy .start).cdBrLength ∧
    (compoundAt 6).useDictionary.st.cdBrCopied ≠ (compoundAt 6).useDictionary.st.cdBrLength ∧
    ((inCallAt (inLoop .copyLoop .start)).inCall = true ∧ (inLoop .copyLoop .start).runningState = .copyLoop ∧
      (let st := { inLoop .copyLoop .start with pos := 1, distance := 1 }; 1 ≤ st.distance ∧ st.distance ≤ st.pos)) ∧
    (compoundAt 6).useDictionary.inCall = true ∧
    (compoundAt 6).useDictionary.st.runningState = .compoundDictionaryCopy ∧
    (compoundAt 6).useDictionary.st.cdOffset (compoundAt 6).useDictionary.st.cdBrIndex +
      (compoundAt 6).useDictionary.st.cdBrOffset < (compoundAt 6).useDictionary.st.CD.length := by
  decide +kernel

theorem wit_BoundarySteps :
    DecoderState.reset.isLast = false ∧ ({ DecoderState.reset with isLast := true } : DecoderState).isLast = true ∧
    ((inCallAt (inLoop .blockStart .start)).inCall = true ∧ (inLoop .blockStart .start).runningState = .blockStart) ∧
    (inPhase .finalize).runningState = .metablockHuffmanData ∧ (inPhase .finalize).pcActive = false ∧
    (inPhase .finalize).hphase = .finalize := by
  decide

/-- Two bytes produced, none delivered, with room for `cap`. -/
def delivering (cap : Nat) : State :=
  inCallAt { inLoop .writeOutput .start with
    resumeState := .mainLoop, H := [7, 8], pos := 2, outCap := cap, RB := [(0, 7), (1, 8)] }

theorem wit_WriteOutputDelivers :
    ((delivering 1).st.flushed + min ((delivering 1).st.pos - (delivering 1).st.flushed) (delivering 1).st.outCap <
      (delivering 1).st.pos) ∧
    ((delivering 2).st.pos ≤
      (delivering 2).st.flushed + min ((delivering 2).st.pos - (delivering 2).st.flushed) (delivering 2).st.outCap) ∧
    (delivering 2).inCall = true ∧ (delivering 2).st.runningState = .writeOutput ∧
    (delivering 2).HOSTBUF.length = (delivering 2).st.outCount ∧ (0 < 1 ∧ 1 = min (3 - 2) 1) ∧
    (let s := { delivering 2 with HOSTBUF := [9], st := { (delivering 2).st with outCount := 1 } };
      s.HOSTBUF.length = s.st.outCount ∧ 0 < s.st.outCount) := by
  decide

/-- At the end of the stream, with the bytes `bs` pulled and the cursor at 8. -/
def atEnd (bs : List Byte) (eof : Bool) : State :=
  { inCallAt { DecoderState.reset with runningState := .finished, field := .atEnd, bitpos := 8 } with
    ckpt := some { DecoderState.reset with runningState := .finished, bitpos := 1 }
    IN := bs, inLen := bs.length, srcEOF := eof }

theorem wit_EndOfStream :
    (atEnd [6, 7] true).st.bitpos < 8 * (atEnd [6, 7] true).inLen ∧
    (8 * (atEnd [6] true).inLen ≤ (atEnd [6] true).st.bitpos ∧ (atEnd [6] true).srcEOF = true) ∧
    (8 * (atEnd [6] false).inLen ≤ (atEnd [6] false).st.bitpos ∧ (atEnd [6] false).srcEOF = false) ∧
    (atEnd [6] true).inCall = true ∧ (atEnd [6] true).st.runningState = .finished ∧ (atEnd [6] true).st.field = .atEnd := by
  decide

theorem wit_EmittedByteFrame :
    (delivering 2).st.RB.wf ∧ (∃ t, exec (.raw 7) (delivering 2) = .next t) ∧ 1 ≠ (delivering 2).st.pos :=
  ⟨by decide, ⟨_, rfl⟩, by decide⟩

theorem delivering_mirrors : MirrorsHistory (delivering 2).st where
  latest i h _ := by
    have h : i < 2 := h
    match i, h with
    | 0, _ => decide +kernel
    | 1, _ => decide +kernel
  untouched a h := by
    have h : 2 ≤ a := h
    show Memory.read [(0, 7), (1, 8)] a = 0
    simp only [Memory.read]
    rw [if_neg (by omega), if_neg (by omega)]
  fresh h := by rcases h with h | h <;> exact absurd h (by decide)

theorem wit_RingReadsHistory :
    MirrorsHistory (delivering 2).st ∧ (delivering 2).st.pos = (delivering 2).st.H.length ∧
    1 ≤ 2 ∧ 2 ≤ (delivering 2).st.pos ∧ 2 ≤ (delivering 2).st.RS :=
  ⟨delivering_mirrors, rfl, by decide, by decide, by decide⟩

theorem delivering_regs : RegsInv (delivering 2).st where
  ringBuffer := by decide
  contextModes := by decide
  contextMapL := by decide
  contextMapD := by decide
  cmMap := by decide
  clLengths := by decide
  codeLengths := by decide
  produced := by decide
  delivered := by decide
  blockBound := by decide
  distances := by decide
  chunks := by decide
  dictionary h := absurd h (by decide)
  resume _ := by decide
  field := trivial

theorem delivering_ranges : Ranges (delivering 2).st where
  counter := by decide
  types k := by cases k <;> constructor <;> decide
  literalMap _ _ _ := show (0 : Byte).toNat < 1 by decide
  distanceMap _ _ _ := show (0 : Byte).toNat < 1 by decide
  copying := by decide
  tables _ := rfl
  typeTrees k _ _ v sym bits h := by cases k <;> cases h
  typeCode k h := by cases k <;> exact absurd h (by decide)
  varlen v h := nomatch h
  switching t h := nomatch h
  mapCode h := absurd h (by decide)
  map h := absurd h (by decide)

theorem delivering_inv : StateInv (delivering 2) where
  base :=
    { regs := delivering_regs, began := fun c h => (nomatch h), whole := fun _ => rfl, idle := fun h => (nomatch h)
      supplied := by decide, cursor := by decide, output := by decide, buffer := fun _ => rfl }
  ranges := ⟨delivering_ranges, fun _ h => nomatch h⟩

/-- R50, last clause: a closed session, whose next command is `Close`. -/
theorem wit_StepKeepsTheInvariant :
    let s := { inState .closed with script := [⟨6, [], [], 0⟩] }
    s.st.runningState = .closed ∧ ∃ t, step s = .next t :=
  ⟨rfl, _, rfl⟩

/-- R43: `BYTES_WRITTEN` and `STATUS` are those of the last `Decompress`, a later `Close` returning `Ok`. -/
theorem test_status_values_survive_close :
    (match Sys2Proof.core.run 2 { delivering 1 with script := [⟨6, [], [], 0⟩] } with
      | .next t => decide (State.bytesWritten t = 1 ∧ State.status t = some .needMoreOutput ∧
          State.result t = .ok ∧ State.errKind t = 0)
      | _ => false) = true := by
  decide +kernel

/-- The whole-machine statements (O50 to O58) at a state that delivers two bytes and goes on. -/
theorem wit_EveryStep :
    StateInv (delivering 2) ∧ RingInv (delivering 2) ∧ BoundedInv (delivering 2) ∧ AccountedInv (delivering 2) ∧
    SetupInv (delivering 2) ∧ (∃ t, step (delivering 2) = .next t) ∧ (delivering 2).inCall = true ∧
    (delivering 2).st.runningState ≠ .metablockHeader ∧ (delivering 2).st.runningState ≠ .metadata ∧
    (delivering 2).st.runningState ≠ .uninitialized ∧ (delivering 2).st.runningState ≠ .initialized :=
  ⟨delivering_inv, ⟨delivering_mirrors, fun _ h => nomatch h⟩,
    ⟨show (delivering 2).st.pos ≤ (delivering 2).st.lapEnd + 36 by decide, fun _ h => nomatch h⟩,
    ⟨show True from trivial, fun _ h => nomatch h⟩, fun _ h => (nomatch h), ⟨_, rfl⟩, rfl, by decide, by decide,
    by decide, by decide⟩

theorem wit_OutputStaysBounded : (delivering 2).st.Bounded :=
  show (delivering 2).st.pos ≤ (delivering 2).st.lapEnd + 36 by decide

theorem atHeader_inv (eof : Bool) : StateInv (atHeader [] eof) where
  base :=
    { regs := by cases eof <;> constructor <;> first | decide | exact trivial
      began := fun c h => (nomatch h), whole := fun _ => rfl, idle := fun h => (nomatch h), supplied := rfl
      cursor := Nat.le_refl 0, output := rfl, buffer := fun _ => rfl }
  ranges := ⟨Laws.ranges_of_same Laws.ranges_reset (by constructor <;> rfl) (fun _ => Nat.zero_le _) (fun _ => Nat.zero_le _)
    (fun h => absurd h (by show ¬ (RunningState.initialized = _ ∨ _); simp [DecoderState.decodingState, atHeader, inCallAt]))
    (fun v h => (nomatch h)) (fun t h => (nomatch h)), fun _ h => nomatch h⟩

/-- A call at a stream header none of whose bytes has come ends short of input; so for a full buffer and for the end of
the stream. -/
theorem wit_HowACallEnds :
    (StateInv (atHeader [] false) ∧ (atHeader [] false).inCall = true ∧
      ∃ t, step (atHeader [] false) = .next t ∧ t.inCall = false) ∧
    (delivering 1).inCall = true ∧ (∃ t, step (delivering 1) = .next t ∧ t.inCall = false) ∧
    (atEnd [6] true).inCall = true ∧ ∃ t, step (atEnd [6] true) = .next t ∧ t.inCall = false :=
  ⟨⟨atHeader_inv false, rfl, _, rfl, rfl⟩, rfl, ⟨_, rfl, rfl⟩, rfl, _, rfl, rfl⟩

/-- A call at a stream header that the end of the stream cuts off. -/
theorem wit_ErrorsArePrecise :
    StateInv (atHeader [] true) ∧ (atHeader [] true).inCall = true ∧
    ∃ t, step (atHeader [] true) = .next t ∧ t.st.runningState = .error .unexpectedEOF :=
  ⟨atHeader_inv true, rfl, _, rfl, rfl⟩

theorem wit_ReadyPositionsDoNotStop : (delivering 2).inCall = true ∧ (delivering 2).st.Ready := ⟨rfl, trivial⟩

/-- R164: the bit reader after reset stands for any stream at bit 0. -/
theorem wit_BitReaderRefinesTheStream :
    BitReader.Represents { BitReader.reset with ring := [6] } [6] 0 ∧ 40 ≤ 40 := by
  refine ⟨⟨by decide, by decide, by decide +kernel, by decide⟩, by decide⟩

end Sys2Proof.Tests
end

/-! The statements about the step, the decoder and errors (00_scope.md, 40_bitreader.md). -/

namespace Sys2Proof.Proofs

open Sys2Proof.Machine Sys2Proof.Laws

/-! ## A step runs the decoded instruction (R11, R12, R405) -/

/-- Settles O9: each clause is one branch of `step`. -/
theorem stepRunsTheDecodedInstruction : Obligations.StepRunsTheDecodedInstruction := by
  unfold Obligations.StepRunsTheDecodedInstruction
  refine ⟨?row, ?internal, ?pull, ?error⟩
  case row =>
    intro s c i n t hfetch hahead hdecode hexec
    simp [step, hfetch, hahead, hdecode, hexec]
  case internal =>
    intro s op hfetch
    simp [step, hfetch]
  case pull =>
    intro s c hfetch hwait
    cases hahead : s.wantsLookahead c
    · have hneed : decode c (s.window c) = .need := hwait.resolve_left (by simp [hahead])
      simp [step, hfetch, hahead, hneed]
    · simp [step, hfetch, hahead]
  case error =>
    intro s c k hfetch hahead hdecode
    simp [step, hfetch, hahead, hdecode]

/-! ## Decoding does not depend on input that has not arrived (R13, R156) -/

/-- `w'` is the window `w` after more bits, or the end of the stream, have arrived. -/
structure Extends (w w' : Window) : Prop where
  mayGrow : w.eof = false
  avail : w.avail ≤ w'.avail
  field : ∀ pos n, pos + n ≤ w.avail → w'.field pos n = w.field pos n

/-- An answer `r` other than `need` is still the answer in `r'`. -/
def Settles (r r' : Read) : Prop := r ≠ .need → r' = r

theorem settles_refl (r : Read) : Settles r r := fun _ => rfl

theorem settles_ite {p : Prop} [Decidable p] {a a' b b' : Read} (ha : Settles a a') (hb : Settles b b') :
    Settles (if p then a else b) (if p then a' else b') := by
  split
  · exact ha
  · exact hb

/-- The bits of a field that are all held stay the same whatever arrives above them. -/
theorem field_add (v avail rest more pos n : Nat) (eof eof' : Bool) (h : pos + n ≤ avail) :
    Window.field ⟨v + 2 ^ avail * rest, avail + more, eof⟩ pos n = Window.field ⟨v, avail, eof'⟩ pos n := by
  obtain ⟨m, rfl⟩ := Nat.exists_eq_add_of_le h
  have hsplit : v + 2 ^ (pos + n + m) * rest = v + 2 ^ pos * (2 ^ n * (2 ^ m * rest)) := by ring
  simp only [Window.field, hsplit, Nat.add_mul_div_left _ _ (Nat.two_pow_pos pos), Nat.add_mul_mod_self_left]

theorem extends_add (v avail rest more : Nat) (eof : Bool) :
    Extends ⟨v, avail, false⟩ ⟨v + 2 ^ avail * rest, avail + more, eof⟩ :=
  ⟨rfl, Nat.le_add_right _ _, fun _ _ h => field_add _ _ _ _ _ _ _ _ h⟩

section
variable {w w' : Window} (hw : Extends w w')
include hw

/-- `ReadBits` that answered gives the same value to what follows it (R153). -/
theorem bits_settles {pos n : Nat} {k k' : Nat → Read} (hk : ∀ x, Settles (k x) (k' x)) :
    Settles (w.bits pos n k) (w'.bits pos n k') := by
  by_cases h : pos + n ≤ w.avail
  · simp only [Window.bits, if_pos h, if_pos (h.trans hw.avail), hw.field pos n h]
    exact hk _
  · intro hneed
    simp [Window.bits, h, hw.mayGrow] at hneed

/-- `ReadSymbol` that answered saw all 15 bits of its peek, and they stay the same (R190, R192). -/
theorem sym_settles {pos : Nat} {T : HuffmanTable} {k k' : Nat → Nat → Read}
    (hk : ∀ s n, Settles (k s n) (k' s n)) :
    Settles (w.sym pos T k) (w'.sym pos T k') := by
  intro hneed
  by_cases hpeek : w.avail < pos + 15
  · simp [Window.sym, hpeek, hw.mayGrow] at hneed
  · have hlong : ¬ w'.avail < pos + 15 := by have := hw.avail; omega
    simp only [Window.sym, hpeek, hlong, false_and, if_false, hw.field pos 15 (by omega)] at hneed ⊢
    cases hT : T.lookup (w.field pos 15) with
    | none => rfl
    | some p =>
      obtain ⟨s, n⟩ := p
      simp only [hT] at hneed ⊢
      by_cases hn : pos + n ≤ w.avail
      · simp only [if_pos hn, if_pos (hn.trans hw.avail)] at hneed ⊢
        exact hk _ _ hneed
      · simp [hn, hw.mayGrow] at hneed

end

/-- A code-length-code length takes no more bits than the four `CL_VLC` is peeked at with (R197). -/
theorem cllenRow_bits_le (p : Nat) : (cllenRow p).1 ≤ 4 := by
  unfold cllenRow
  split
  · decide
  · decide
  · decide
  · split_ifs <;> decide

/-- Every element settles: its fields are read in order, and each field that answered keeps its value (R110). -/
theorem decode_settles {w w' : Window} (hw : Extends w w') (c : Ctx) : Settles (decode c w) (decode c w') := by
  cases c <;> simp only [decode]
  case nbltypes | ntrees | distImplicit | transform => exact settles_refl _
  case hostCommand | isLast | isLastEmpty | mnibbles | isUncompressed | reserved | mskipbytes | pad | finalPad | raw |
      skip | npostfix | ndirecthi | cmode | rlemaxflag | rlemaxm1 | imtf | hskip | nsymm1 | symbol | treeselect |
      insLen | copyLen =>
    exact bits_settles hw fun _ => settles_refl _
  case btype | cmd | lit => exact sym_settles hw fun _ _ => settles_refl _
  case mlen nibbles =>
    split
    · exact bits_settles hw fun _ => settles_refl _
    · exact bits_settles hw fun _ => settles_refl _
    · exact bits_settles hw fun _ => settles_refl _
    · exact settles_refl _
  case mskiplen bytes =>
    split
    · exact bits_settles hw fun _ => settles_refl _
    · exact bits_settles hw fun _ => settles_refl _
    · exact bits_settles hw fun _ => settles_refl _
    · exact settles_refl _
  case streamHeader largeWindow =>
    refine bits_settles hw fun _ => settles_ite (settles_refl _) ?_
    refine bits_settles hw fun _ => settles_ite (settles_refl _) ?_
    refine bits_settles hw fun _ => settles_ite (settles_refl _) (settles_ite ?_ (settles_refl _))
    refine settles_ite ?_ (settles_refl _)
    exact bits_settles hw fun _ => settles_ite (settles_refl _) (bits_settles hw fun _ => settles_refl _)
  case varlen8 =>
    refine bits_settles hw fun _ => settles_ite (settles_refl _) ?_
    refine bits_settles hw fun _ => settles_ite (settles_refl _) ?_
    exact bits_settles hw fun _ => settles_refl _
  case cmap T rleMax =>
    refine sym_settles hw fun _ _ => settles_ite (settles_refl _) (settles_ite ?_ (settles_refl _))
    exact bits_settles hw fun _ => settles_refl _
  case clsym T =>
    refine sym_settles hw fun _ _ => settles_ite ?_ (settles_ite ?_ (settles_refl _))
    · exact bits_settles hw fun _ => settles_refl _
    · exact bits_settles hw fun _ => settles_refl _
  case blen T => exact sym_settles hw fun _ _ => bits_settles hw fun _ => settles_refl _
  case dist T npostfix ndirect =>
    refine sym_settles hw fun _ _ => settles_ite (settles_refl _) (settles_ite (settles_refl _) ?_)
    exact bits_settles hw fun _ => settles_refl _
  case cllen =>
    intro hneed
    by_cases hpeek : w.avail < 4
    · simp [hpeek, hw.mayGrow] at hneed
    · have hbits := cllenRow_bits_le (w.field 0 4)
      have hlong := hw.avail
      rw [hw.field 0 4 (by omega), if_neg fun h => absurd h.1 (by omega), if_pos (by omega),
        if_neg fun h => hpeek h.1, if_pos (by omega)]

/-- Settles O14: a window with more bits extends the one at hand. -/
theorem decodingIsStable : Obligations.DecodingIsStable := by
  intro c v avail hanswered rest more eof
  exact decode_settles (extends_add v avail rest more eof) c hanswered

/-! ## Errors are precise (R12, R440) -/

/-- The session has not failed (R20, R440). -/
def Live (st : DecoderState) : Prop := ∀ k, st.runningState ≠ .error k

theorem live_of_run {a b : DecoderState} (ha : Live a) (h : b.runningState = a.runningState) : Live b :=
  fun k hb => ha k (h ▸ hb)

theorem live_fenceTest (st : DecoderState) {r : RunningState} (hr : ∀ k, r ≠ .error k) : Live (st.fenceTest r) := by
  intro k
  rw [fenceTest_runningState]
  split
  · simp
  · exact hr k

theorem live_ite {p : Prop} [Decidable p] {a b : DecoderState} (ha : Live a) (hb : Live b) :
    Live (if p then a else b) := by
  split
  · exact ha
  · exact hb

theorem live_compressedHeader (st : DecoderState) : Live st.compressedHeader := fun _ => nofun

theorem live_headerPadded (s : State) : Live s.headerPadded.st := by
  intro k
  unfold State.headerPadded
  dsimp only
  split <;> simp

@[simp] theorem afterPartition_runningState (st : DecoderState) (k : Cat) :
    (st.afterPartition k).runningState = st.runningState := (still_afterPartition st k).run
@[simp] theorem deliver_runningState (st : DecoderState) (T : HuffmanTable) :
    (st.deliver T).runningState = st.runningState := (still_deliver st T).run
@[simp] theorem endMap_runningState (st : DecoderState) : st.endMap.runningState = st.runningState :=
  (still_endMap st).run
@[simp] theorem mapDone_runningState (st : DecoderState) (n : Nat) : (st.mapDone n).runningState = st.runningState :=
  (still_mapDone st n).run
@[simp] theorem setBlockTypes_runningState (st : DecoderState) (k : Cat) (v : Nat) :
    (st.setBlockTypes k v).runningState = st.runningState := by
  unfold DecoderState.setBlockTypes; dsimp only; split <;> simp
@[simp] theorem setMapTrees_runningState (st : DecoderState) (v : Nat) :
    (st.setMapTrees v).runningState = st.runningState := by
  unfold DecoderState.setMapTrees; dsimp only; split <;> simp

/-- An operation on `s` raised an error, or the session goes on. -/
def RaisesOrLives (s u : State) : Prop := (∃ k, u = s.raise k) ∨ Live u.st

theorem raises (s : State) (k : ErrorKind) : RaisesOrLives s (s.raise k) := .inl ⟨k, rfl⟩

theorem raisesOrLives_ite {p : Prop} [Decidable p] {s u v : State} (hu : RaisesOrLives s u) (hv : RaisesOrLives s v) :
    RaisesOrLives s (if p then u else v) := by
  split
  · exact hu
  · exact hv

theorem resolve_raisesOrLives (s : State) (st : DecoderState) : RaisesOrLives s (s.resolve st) := by
  rcases resolve_cases s st with ⟨-, h⟩ | ⟨-, -, h⟩ | ⟨-, -, -, h⟩ | ⟨-, -, -, -, h⟩ <;> rw [h]
  · exact .inr (by simp [Live])
  · exact raises s _
  · exact .inr (by simp [Live])
  · exact .inr (by simp [Live])

theorem explicitDistance_raisesOrLives (s : State) (sym : Nat) (d : Int) :
    RaisesOrLives s (s.explicitDistance sym d) :=
  raisesOrLives_ite (raises s _) (resolve_raisesOrLives s _)

section
variable {s : State} (hs : Live s.st)
include hs

theorem endSimple_raisesOrLives (symbols : List Nat) (treeSelect : Bool) :
    RaisesOrLives s (s.endSimple symbols treeSelect) := by
  have hdone : Live ({ s.st with field := .start }.deliver
      (.build (simpleLengths symbols treeSelect s.st.pcAlphaLimit) Config.huffRootBits)) :=
    live_of_run hs (by simp)
  exact raisesOrLives_ite (raises s _) (raisesOrLives_ite (raises s _) (.inr hdone))

theorem simpleSymbol_raisesOrLives (x : Nat) : RaisesOrLives s (s.simpleSymbol x) :=
  raisesOrLives_ite (.inr hs) (raisesOrLives_ite (.inr hs) (endSimple_raisesOrLives hs _ _))

theorem symbolLengthDone_raisesOrLives {st : DecoderState} (h : st.runningState = s.st.runningState) :
    RaisesOrLives s (s.symbolLengthDone st) :=
  raisesOrLives_ite (.inr (live_of_run hs h))
    (raisesOrLives_ite (raises s _) (.inr (live_of_run hs (by simp [h]))))

theorem repeatLength_raisesOrLives (newLen xb x : Nat) : RaisesOrLives s (s.repeatLength newLen xb x) :=
  raisesOrLives_ite (raises s _) (symbolLengthDone_raisesOrLives hs rfl)

theorem codeLengthLength_raisesOrLives (v : Nat) : RaisesOrLives s (s.codeLengthLength v) :=
  raisesOrLives_ite (raisesOrLives_ite (raises s _) (.inr hs)) (.inr hs)

theorem directCodes_raisesOrLives (d : Nat) : RaisesOrLives s (s.directCodes d) := by
  unfold State.directCodes
  split
  · exact raises s _
  · exact .inr (live_of_run hs (by simp))

omit hs in
theorem useDictionary_raisesOrLives (s : State) : RaisesOrLives s s.useDictionary := by
  have hstart : ∀ a, RaisesOrLives s (s.compoundStart a) := fun a =>
    raisesOrLives_ite (raises s _) (raisesOrLives_ite (raises s _) (.inr (by simp [Live])))
  exact raisesOrLives_ite (raises s _) (raisesOrLives_ite (hstart _) (raises s _))

theorem blockCount_raisesOrLives (n : Nat) : RaisesOrLives s (s.blockCount n) := by
  refine .inr ?_
  unfold State.blockCount
  dsimp only
  split
  · exact hs
  · exact live_of_run hs (afterPartition_runningState _ _)

/-- A row read inside a `Decompress` raises an error or leaves the session alive (R12, R440). -/
theorem effect_raisesOrLives {st : DecoderState} {c : Ctx} {u : State} (hc : At st c) (he : Effect s c u) :
    RaisesOrLives s u := by
  cases he
  case reset | init | enableLargeWindow | enableEagerOutput | attach | decompress | close => exact hc.elim
  case isLast | reserved | skip | finalPad | varlen8 | npostfix | rlemaxm1 | nsymm1 | btype | cmd | insLen =>
    exact .inr hs
  case mnibbles | mskipbytes | rlemaxflag | hskip => exact .inr (live_ite hs hs)
  case window => exact .inr fun _ => nofun
  case isLastEmpty => exact .inr (live_ite (fun _ => nofun) hs)
  case pad => exact .inr (live_headerPadded s)
  case largeWindow => exact raisesOrLives_ite (raises s _) (.inr fun _ => nofun)
  case reservedWindow => exact raises s _
  case mlen => exact raisesOrLives_ite (raises s _) (.inr (live_ite (live_compressedHeader _) hs))
  case isUncompressed => exact .inr (live_ite hs (live_compressedHeader _))
  case mskiplen => exact raisesOrLives_ite (raises s _) (.inr hs)
  case raw | lit => exact .inr (live_fenceTest _ fun _ => nofun)
  case nbltypes => exact .inr (live_of_run hs (setBlockTypes_runningState _ _ _))
  case ntrees => exact .inr (live_of_run hs (setMapTrees_runningState _ _))
  case ndirecthi => exact directCodes_raisesOrLives hs _
  case cmode => exact .inr (live_ite hs (live_of_run hs (enterPhase_runningState _ _)))
  case cmapZero | cmapValue => exact .inr (live_of_run hs (mapDone_runningState _ _))
  case cmapRun => exact raisesOrLives_ite (raises s _) (.inr (live_of_run hs (mapDone_runningState _ _)))
  case imtf =>
    exact .inr (live_ite (live_of_run hs (endMap_runningState _)) (live_of_run hs (endMap_runningState _)))
  case symbol => exact simpleSymbol_raisesOrLives hs _
  case treeselect => exact endSimple_raisesOrLives hs _ _
  case cllen => exact codeLengthLength_raisesOrLives hs _
  case clsym => exact symbolLengthDone_raisesOrLives hs rfl
  case clsym16 | clsym17 => exact repeatLength_raisesOrLives hs _ _ _
  case blen => exact blockCount_raisesOrLives hs _
  case copyLen => exact raisesOrLives_ite (raises s _) (.inr fun _ => nofun)
  case distImplicit => exact resolve_raisesOrLives s _
  case distShort | distDirect | distLong => exact explicitDistance_raisesOrLives s _ _
  case transform => exact raisesOrLives_ite (raises s _) (.inr (live_fenceTest _ fun _ => nofun))

/-- An element step without a row does so as well, the end of the stream apart, where it can also ask for more. -/
theorem internal_raisesOrLives {op : Internal} (hi : RegsInv s.st) (ha : AtInternal s.st op) :
    op.run s = s.pull ∨ RaisesOrLives s (op.run s) := by
  cases op
  case blockStart => exact .inr (.inr (live_ite (fun _ => nofun) fun _ => nofun))
  case endOfBlock | finalize | literalsDone => exact .inr (.inr fun _ => nofun)
  case copy | compoundCopy => exact .inr (.inr (live_ite (fun _ => nofun) (live_fenceTest _ fun _ => nofun)))
  case useDictionary => exact .inr (useDictionary_raisesOrLives s)
  case writeOutput =>
    have hresume : ∀ k, s.st.resumeState ≠ .error k := by
      intro k hk
      have hres := hi.resume ha
      simp [hk, RunningState.resumable] at hres
    exact .inr (raisesOrLives_ite (.inr hs) (.inr hresume))
  case atEnd =>
    unfold Internal.run State.stepAtEnd
    dsimp only
    split
    · exact .inr (raises s _)
    · split
      · exact .inr (.inr hs)
      · exact .inl rfl

end

/-- The call in `s` ends in `t` with error `k`, and precisely (R12, R440): the registers are those the element
step began with, but for the state tag, and nothing is delivered. -/
structure FailsPrecisely (s t : State) (k : ErrorKind) : Prop where
  registers : t.st = { s.base with runningState := .error k, field := .start }
  complete : t.ckpt = none
  ended : t.inCall = false
  output : t.OUT = s.OUT
  buffer : t.HOSTBUF = s.HOSTBUF
  input : t.IN = s.IN
  answer : t.result = .decompressed s.base.outCount (.error k)

/-- What a step of a call from `s` leaves: a precise error, or a session that goes on. -/
def EndsPrecisely (s t : State) : Prop := (∃ k, FailsPrecisely s t k) ∨ Live t.st

section
variable {s : State} (hc : s.inCall = true)
include hc

theorem failsPrecisely_raise (k : ErrorKind) : FailsPrecisely s (s.raise k) k :=
  ⟨rfl, rfl, rfl, rfl, rfl, rfl, by simp [hc]⟩

theorem endsPrecisely_of_raisesOrLives {u : State} (h : RaisesOrLives s u) : EndsPrecisely s u := by
  rcases h with ⟨k, rfl⟩ | hu
  · exact .inl ⟨k, failsPrecisely_raise hc k⟩
  · exact .inr hu

/-- A pull fails where the source does, which raises `ReadFailed` (R155). -/
theorem endsPrecisely_pull (hb : Live s.base) (hs : Live s.st) : EndsPrecisely s s.pull := by
  unfold State.pull
  split
  · exact .inr hb
  · exact .inr hb
  · exact .inr hs
  · exact .inl ⟨.readFailed, rfl, rfl, rfl, rfl, rfl, rfl, by simp [hc, State.base]⟩
  · exact .inr hb
  · exact .inr hs

end

theorem endsPrecisely_commit {s u : State} (h : EndsPrecisely s u) : EndsPrecisely s u.commit := by
  rcases h with ⟨k, hregs, -, hend, hout, hbuf, hin, hres⟩ | hu
  · rw [commit_of_start (by rw [hregs])]
    exact .inl ⟨k, hregs, rfl, hend, hout, hbuf, hin, hres⟩
  · exact .inr (by rwa [commit_st])

/-- A failed session has no element step (R407). -/
theorem live_of_fetch {st : DecoderState} (h : st.fetch ≠ .stuck .noElementStep) : Live st :=
  fun k hk => h (by simp [DecoderState.fetch, hk])

theorem take_of_at {s : State} {c : Ctx} (hc : At s.st c) (n : Nat) : s.take c n = s.advance n := by
  unfold State.take
  split
  · exact hc.elim
  · rfl

/-- A step of a call ends precisely (R12, R440). -/
theorem step_endsPrecisely {s t : State} (hi : BaseInv s) (hc : s.inCall = true) (h : step s = .next t) :
    EndsPrecisely s t := by
  have hfetch := fetch_of_inCall hc
  have hs : Live s.st := live_of_fetch fun hstuck => by simp [step, hfetch, hstuck] at h
  have hb : Live s.base := by
    obtain ⟨-, -, -, -, -, hrun, -⟩ := inv_base hi
    exact live_of_run hs hrun
  rcases step_cases h with
    ⟨-, rfl⟩ | ⟨op, hop, rfl⟩ | ⟨-, -, -, rfl⟩ | ⟨-, k, -, -, rfl⟩ | ⟨c, i, n, u, hel, -, -, he, rfl⟩
  · exact .inr hs
  · refine endsPrecisely_commit ?_
    rcases internal_raisesOrLives hs hi.regs (fetch_atInternal (hfetch ▸ hop)) with hpull | hrun
    · exact hpull ▸ endsPrecisely_pull hc hb hs
    · exact endsPrecisely_of_raisesOrLives hc hrun
  · exact endsPrecisely_pull hc hb hs
  · exact .inl ⟨k, failsPrecisely_raise hc k⟩
  · refine endsPrecisely_commit (endsPrecisely_of_raisesOrLives hc ?_)
    have hat := fetch_at (hfetch ▸ hel)
    rw [take_of_at hat] at he
    rcases effect_raisesOrLives (s := s.advance n) hs hat he with ⟨k, rfl⟩ | hu
    · exact .inl ⟨k, advance_raise s n k⟩
    · exact .inr hu

/-- Settles O58: a step of a call ends precisely, and only its error branch leaves an error state. -/
theorem errorsArePrecise : Obligations.ErrorsArePrecise := by
  intro s t k hi hc hstep hk
  rcases step_endsPrecisely hi.base hc hstep with ⟨k', hregs, hckpt, hend, hout, hbuf, hin, hres⟩ | hlive
  · obtain rfl : k' = k := by simpa [hregs] using hk
    exact ⟨hregs, hckpt, hend, hout, hbuf, hin, hres⟩
  · exact absurd hk (hlive k)

end Sys2Proof.Proofs

/-! The statements about the machine's state: its invariants, the control state, the output, the end of a call and
the bit reader (10_state.md). -/

namespace Sys2Proof.Proofs

open Sys2Proof.Machine Sys2Proof.Laws

/-! ## The invariants after reset (R49, R480) -/

/-- No element step is in progress after reset, so what is asked of one holds. -/
theorem reset_ckpt {p : DecoderState → Prop} (c : DecoderState) (h : State.reset.ckpt = some c) : p c := by
  simp [State.reset] at h

theorem baseInv_reset : BaseInv .reset :=
  ⟨reset_inv_regs, reset_ckpt, fun _ => rfl, fun _ => rfl, rfl, Nat.zero_le _, rfl, by simp [State.reset]⟩

theorem mirrorsHistory_reset : MirrorsHistory .reset :=
  ⟨fun i h => absurd h (Nat.not_lt_zero i), fun _ _ => rfl, fun _ => rfl⟩

theorem bounded_reset : DecoderState.reset.Bounded := Nat.zero_lt_one

theorem accounted_reset : DecoderState.reset.Accounted := trivial

/-- Settles O3: nothing has been read or produced, and no element step is in progress. -/
theorem resetSatisfiesTheInvariants : Obligations.ResetSatisfiesTheInvariants :=
  ⟨⟨baseInv_reset, ranges_reset, reset_ckpt⟩, ⟨mirrorsHistory_reset, reset_ckpt⟩, ⟨bounded_reset, reset_ckpt⟩,
    ⟨accounted_reset, reset_ckpt⟩, reset_ckpt⟩

/-! ## What decoding consumes (R151, R152, R156) -/

/-- The answer `r` fits the window it was read from: a row consumes no more bits than are there, and only where more may
come is an element short of bits. -/
def FitsWindow (w : Window) (r : Read) : Prop :=
  match r with
  | .ok _ n => n ≤ w.avail
  | .need => w.eof = false
  | .bad _ => True

section
variable {w : Window}

theorem fitsWindow_ite {p : Prop} [Decidable p] {a b : Read} (ha : FitsWindow w a) (hb : FitsWindow w b) :
    FitsWindow w (if p then a else b) := by
  split
  · exact ha
  · exact hb

theorem fitsWindow_ofOption {n : Nat} (o : Option Instr) (h : n ≤ w.avail) : FitsWindow w (.ofOption o n) := by
  cases o
  · trivial
  · exact h

theorem fitsWindow_starved : FitsWindow w (if w.eof then .bad (.error .unexpectedEOF) else .need) := by
  cases h : w.eof
  · exact h
  · trivial

theorem fitsWindow_bits {p n : Nat} {k : Nat → Read} (hk : ∀ x, p + n ≤ w.avail → FitsWindow w (k x)) :
    FitsWindow w (w.bits p n k) := by
  unfold Window.bits
  split
  · exact hk _ ‹_›
  · exact fitsWindow_starved

theorem fitsWindow_sym {p : Nat} {T : HuffmanTable} {k : Nat → Nat → Read}
    (hk : ∀ s n, n ≤ w.avail → FitsWindow w (k s n)) : FitsWindow w (w.sym p T k) := by
  unfold Window.sym
  split
  · exact And.right ‹_›
  · split
    · trivial
    · split
      · exact hk _ _ ‹_›
      · exact fitsWindow_starved

end

/-- Every element's answer fits: its fields are read in order, and each one it reads is there (R110). -/
theorem decode_fitsWindow (c : Ctx) (w : Window) : FitsWindow w (decode c w) := by
  cases c <;> simp only [decode]
  case nbltypes | ntrees | distImplicit => exact Nat.zero_le _
  case transform => exact fitsWindow_ofOption _ (Nat.zero_le _)
  case isLast | isLastEmpty | isUncompressed | raw | skip | npostfix | ndirecthi | rlemaxflag | rlemaxm1 | imtf |
      symbol | treeselect =>
    exact fitsWindow_bits fun _ h => (Nat.zero_add _).symm.trans_le h
  case reserved => exact fitsWindow_bits fun _ h => fitsWindow_ite h trivial
  case pad | finalPad =>
    exact fitsWindow_bits fun _ h => fitsWindow_ite ((Nat.zero_add _).symm.trans_le h) trivial
  case insLen | copyLen =>
    exact fitsWindow_bits fun _ h => fitsWindow_ofOption _ ((Nat.zero_add _).symm.trans_le h)
  case mnibbles | mskipbytes | cmode | hskip | nsymm1 =>
    refine fitsWindow_bits fun _ h => ?_
    split <;> exact h
  case hostCommand =>
    refine fitsWindow_bits fun _ h => ?_
    split
    · trivial
    · exact h
  case mlen | mskiplen =>
    split
    · exact fitsWindow_bits fun _ h => h
    · exact fitsWindow_bits fun _ h => h
    · exact fitsWindow_bits fun _ h => h
    · trivial
  case streamHeader large =>
    refine fitsWindow_bits fun _ h1 => fitsWindow_ite h1 ?_
    refine fitsWindow_bits fun _ h4 => fitsWindow_ite (fitsWindow_ofOption _ h4) ?_
    refine fitsWindow_bits fun _ h7 => fitsWindow_ite h7 (fitsWindow_ite ?_ (fitsWindow_ofOption _ h7))
    refine fitsWindow_ite (fitsWindow_bits fun _ _ => ?_) h7
    exact fitsWindow_ite trivial (fitsWindow_bits fun _ h14 => h14)
  case varlen8 =>
    refine fitsWindow_bits fun _ h1 => fitsWindow_ite h1 ?_
    refine fitsWindow_bits fun _ h4 => fitsWindow_ite h4 ?_
    exact fitsWindow_bits fun _ h => fitsWindow_ofOption _ h
  case cmap T rleMax =>
    refine fitsWindow_sym fun _ _ h => fitsWindow_ite h (fitsWindow_ite ?_ h)
    exact fitsWindow_bits fun _ h => fitsWindow_ofOption _ h
  case clsym T =>
    refine fitsWindow_sym fun _ _ h => fitsWindow_ite ?_ (fitsWindow_ite ?_ (fitsWindow_ofOption _ h))
    · exact fitsWindow_bits fun _ h => h
    · exact fitsWindow_bits fun _ h => h
  case btype T =>
    refine fitsWindow_sym fun _ _ h => ?_
    split
    all_goals exact h
  case blen T => exact fitsWindow_sym fun _ _ _ => fitsWindow_bits fun _ h => fitsWindow_ofOption _ h
  case cmd T => exact fitsWindow_sym fun _ _ h => fitsWindow_ofOption _ h
  case lit T => exact fitsWindow_sym fun _ _ h => fitsWindow_ite h trivial
  case dist T npostfix ndirect =>
    refine fitsWindow_sym fun _ _ h => fitsWindow_ite (fitsWindow_ofOption _ h) (fitsWindow_ite h ?_)
    exact fitsWindow_bits fun _ h => h
  case cllen =>
    split
    · exact And.right ‹_›
    · split
      · assumption
      · trivial

theorem decode_consumes {c : Ctx} {w : Window} {i : Instr} {n : Nat} (h : decode c w = .ok i n) : n ≤ w.avail := by
  simpa [h, FitsWindow] using decode_fitsWindow c w

/-- At the end of the stream no element waits (R156). -/
theorem decode_need {c : Ctx} {w : Window} (h : decode c w = .need) : w.eof = false := by
  simpa [h, FitsWindow] using decode_fitsWindow c w

/-! ## One step, inside a call and outside (R11, R400, R409) -/

theorem window_of_at {s : State} {c : Ctx} (hc : At s.st c) :
    s.window c = ⟨streamValue s.IN s.st.bitpos, s.bitsHeld, s.srcEOF⟩ := by
  unfold State.window
  split
  · exact hc.elim
  · rfl

/-- A build declines an element step for look-ahead only while more input may come (R163). -/
theorem wantsLookahead_mayGrow {s : State} {c : Ctx} (h : s.wantsLookahead c = true) : s.srcEOF = false := by
  unfold State.wantsLookahead at h
  split at h
  · cases h
  · simpa using And.left (by simpa using h)
  · cases h

/-- What a step of a call does (R409): an element step without a row, a pull while more may come, an error found while
reading, or a row whose bits are there. -/
theorem step_inCall {s t : State} (hc : s.inCall = true) (h : step s = .next t) :
    (∃ op, AtInternal s.st op ∧ t = (op.run s).commit) ∨
    (s.srcEOF = false ∧ t = s.pull) ∨
    (∃ k, t = s.raise k) ∨
    (∃ c n u, At s.st c ∧ n ≤ s.bitsHeld ∧ Effect (s.advance n) c u ∧ t = u.commit) := by
  have hfetch := fetch_of_inCall hc
  rcases step_cases h with
    ⟨hidle, -⟩ | ⟨op, hop, rfl⟩ | ⟨c, hel, hwait, rfl⟩ | ⟨-, k, -, -, rfl⟩ | ⟨c, i, n, u, hel, hdec, -, he, rfl⟩
  · exact absurd (hfetch ▸ hidle) (fetch_not_idle _)
  · exact .inl ⟨op, fetch_atInternal (hfetch ▸ hop), rfl⟩
  · have hat := fetch_at (hfetch ▸ hel)
    refine .inr (.inl ⟨?_, rfl⟩)
    rcases hwait with hahead | hneed
    · exact wantsLookahead_mayGrow hahead
    · simpa [window_of_at hat] using decode_need hneed
  · exact .inr (.inr (.inl ⟨k, rfl⟩))
  · have hat := fetch_at (hfetch ▸ hel)
    have hn := decode_consumes hdec
    rw [window_of_at hat] at hn
    rw [take_of_at hat] at he
    exact .inr (.inr (.inr ⟨c, n, u, hat, hn, he, rfl⟩))

/-- The word of a host command is complete: it is a command or refused (R400). -/
theorem decode_hostCommand (src : List SourceAnswer) (chunk : List Byte) (cap v : Nat) :
    (∃ i, decode (.hostCommand src chunk cap) ⟨v, 3, true⟩ = .ok i 3) ∨
      decode (.hostCommand src chunk cap) ⟨v, 3, true⟩ = .bad .badCommand := by
  simp only [decode, Window.bits, Nat.zero_add, le_refl, if_true]
  split
  · exact .inr rfl
  · exact .inl ⟨_, rfl⟩

/-- Outside a call the machine is idle or runs the host's next command (R11, R400). -/
theorem step_host {s t : State} (hc : s.inCall = false) (h : step s = .next t) :
    t = s ∨ ∃ cmd rest u, s.script = cmd :: rest ∧
      Effect { s with script := rest } (.hostCommand cmd.source cmd.chunk cmd.cap) u ∧ t = u.commit := by
  rcases fetch_of_idle hc with ⟨-, hfetch⟩ | ⟨cmd, rest, hscript, hfetch⟩
  · simp only [step, hfetch, Host.Outcome.next.injEq] at h
    exact .inl h.symm
  · have hwindow : s.window (.hostCommand cmd.source cmd.chunk cmd.cap) = ⟨cmd.code.toNat, 3, true⟩ := by
      simp [State.window, hscript]
    simp only [step, hfetch, State.wantsLookahead, Bool.false_eq_true, if_false, hwindow] at h
    rcases decode_hostCommand cmd.source cmd.chunk cmd.cap cmd.code.toNat with ⟨i, hdec⟩ | hdec
    · have htake : s.take (.hostCommand cmd.source cmd.chunk cmd.cap) 3 = { s with script := rest } := by
        simp [State.take, hscript]
      obtain ⟨u, hexec, he⟩ := effect_of_decode hdec { s with script := rest }
      simp only [hdec, htake, hexec, Host.Outcome.next.injEq] at h
      exact .inr ⟨cmd, rest, u, hscript, he, h.symm⟩
    · simp [hdec] at h

/-! ## Every step keeps the invariant (R50, R71, R388, R389) -/

/-- The first `n` places of a move-to-front list hold values below `n`. -/
def FrontBelow (n : Nat) (mtf : List Byte) : Prop := ∀ i, i < n → (mtf.getD i 0).toNat < n

theorem frontBelow_identity {n : Nat} (hn : n ≤ 256) : FrontBelow n ((List.range 256).map (BitVec.ofNat 8)) := by
  intro i hi
  have hlt : i < 256 := by omega
  simp [List.getD_eq_getElem?_getD, hlt]
  omega

/-- Moving a value of the first `n` places to the front keeps them below `n` (R257). -/
theorem frontBelow_moveToFront {n i : Nat} {mtf : List Byte} (h : FrontBelow n mtf) (hi : i < n) :
    FrontBelow n (mtf.getD i 0 :: mtf.eraseIdx i) := by
  intro k hk
  cases k with
  | zero => exact h i hi
  | succ k =>
    simp only [List.getD_cons_succ]
    rw [List.getD_eq_getElem?_getD, List.getElem?_eraseIdx]
    split
    · simpa [List.getD_eq_getElem?_getD] using h k (by omega)
    · simpa [List.getD_eq_getElem?_getD] using h (k + 1) hk

theorem inverseMoveToFrontFrom_below {n : Nat} (map : List Byte) {mtf : List Byte} (hmtf : FrontBelow n mtf)
    (hmap : ∀ b ∈ map, b.toNat < n) :
    (inverseMoveToFrontFrom mtf map).length = map.length ∧ ∀ b ∈ inverseMoveToFrontFrom mtf map, b.toNat < n := by
  induction map generalizing mtf with
  | nil => exact ⟨rfl, hmap⟩
  | cons x rest ih =>
    have hx := hmap x List.mem_cons_self
    obtain ⟨hlen, hbelow⟩ :=
      ih (frontBelow_moveToFront hmtf hx) fun b hb => hmap b (List.mem_cons_of_mem x hb)
    exact ⟨congrArg (· + 1) hlen, List.forall_mem_cons.mpr ⟨hmtf _ hx, hbelow⟩⟩

/-- The inverse move-to-front transform keeps values below the number of trees (R255, R257). -/
theorem inverseMoveToFront_below (n : Nat) (map : List Byte) (hn : n ≤ 256) (hmap : ∀ b ∈ map, b.toNat < n) :
    (inverseMoveToFront map).length = map.length ∧ ∀ b ∈ inverseMoveToFront map, b.toNat < n :=
  inverseMoveToFrontFrom_below map (frontBelow_identity hn) hmap

theorem stateInv_step {s t : State} (hi : StateInv s) (h : step s = .next t) : StateInv t := by
  obtain ⟨hb, hr⟩ := hi
  cases hc : s.inCall
  case false =>
    rcases step_host hc h with rfl | ⟨cmd, rest, u, -, he, rfl⟩
    · exact ⟨hb, hr⟩
    · have hb' : BaseInv { s with script := rest } :=
        ⟨hb.regs, hb.began, hb.whole, hb.idle, hb.supplied, hb.cursor, hb.output, hb.buffer⟩
      exact ⟨inv_commit (inv_host hb' hc he), range_commit (range_host hb' hr hc he)⟩
  case true =>
    rcases step_inCall hc h with ⟨op, hat, rfl⟩ | ⟨-, rfl⟩ | ⟨k, rfl⟩ | ⟨c, n, u, hat, hn, he, rfl⟩
    · exact ⟨inv_internal hb hc hat, range_internal hb hr hat⟩
    · exact ⟨inv_pull hb, range_pull hb hr⟩
    · exact ⟨inv_raise hb k, range_raise hb hr k⟩
    · exact ⟨inv_effect hb hc hn hat he, range_effect hb hr inverseMoveToFront_below hat he⟩

/-- The session is closed or failed (R20, R406, R440). -/
def SessionOver (st : DecoderState) : Prop := st.runningState = .closed ∨ ∃ k, st.runningState = .error k

/-- A closed or failed session has no element step (R407). -/
theorem not_sessionOver_of_inCall {s t : State} (hc : s.inCall = true) (h : step s = .next t) : ¬ SessionOver s.st := by
  have hfetch := fetch_of_inCall hc
  rintro (hr | ⟨k, hr⟩) <;> simp [step, hfetch, DecoderState.fetch, hr] at h

theorem commandIn_of_sessionOver {s : State} (ho : SessionOver s.st) (legal : RunningState) (misuse : ErrorKind)
    (effect : State → State) : ∃ r, s.commandIn legal misuse effect = s.answer r := by
  unfold State.commandIn
  rcases ho with hr | ⟨k, hr⟩ <;> rw [hr] <;> exact ⟨_, rfl⟩

theorem beginCall_of_sessionOver {s : State} (ho : SessionOver s.st) (cap : Nat) :
    ∃ r, s.beginCall cap = s.answer r := by
  unfold State.beginCall
  rcases ho with hr | ⟨k, hr⟩ <;> rw [hr] <;> exact ⟨_, rfl⟩

/-- A command on a closed or failed session answers and leaves the registers alone, `Reset` and `Close` apart (R407). -/
theorem command_of_sessionOver {s u : State} {src : List SourceAnswer} {chunk : List Byte} {cap : Nat}
    (ho : SessionOver s.st) (he : Effect s (.hostCommand src chunk cap) u) :
    u = s.hardReset ∨ (∃ r, u = s.answer r) ∨ u = s.closeSession := by
  cases he
  case reset => exact .inl rfl
  case init | enableLargeWindow | enableEagerOutput | attach => exact .inr (.inl (commandIn_of_sessionOver ho _ _ _))
  case decompress => exact .inr (.inl (beginCall_of_sessionOver ho _))
  case close => exact .inr (.inr rfl)

/-- Settles O50: each kind of step keeps both parts of the invariant, and a session that is over takes host commands
only. -/
theorem stepKeepsTheInvariant : Obligations.StepKeepsTheInvariant := by
  refine ⟨fun s t => stateInv_step, ?_⟩
  intro s t ho h
  have hc : s.inCall = false := Bool.eq_false_iff.mpr fun hc => not_sessionOver_of_inCall hc h ho
  rcases step_host hc h with rfl | ⟨cmd, rest, u, -, he, rfl⟩
  · exact .inr ⟨.inl rfl, rfl, rfl, rfl, rfl⟩
  · have ho' : SessionOver ({ s with script := rest } : State).st := ho
    rcases command_of_sessionOver ho' he with rfl | ⟨r, rfl⟩ | rfl
    · exact .inl (commit_st _)
    · exact .inr ⟨.inl (by simp), by simp, by simp, by simp, by simp⟩
    · exact .inr ⟨.inr (by simp [State.closeSession]), by simp [State.closeSession], by simp [State.closeSession],
        by simp [State.closeSession], by simp [State.closeSession]⟩

/-! ## What one step does to the registers (R12) -/

/-- Registers `b` follow registers `a` with nothing read and nothing produced: the control state may move, output may be
delivered, and a session not yet decoding may be set up. -/
structure Silent (a b : DecoderState) : Prop where
  RB : b.RB = a.RB
  H : b.H = a.H
  pos : b.pos = a.pos
  flushed : a.flushed ≤ b.flushed
  bitpos : b.bitpos = a.bitpos
  windowBits : b.windowBits = a.windowBits
  metaBlockLength : b.metaBlockLength = a.metaBlockLength
  accounted : a.Accounted → b.Accounted
  setup : a.runningState ≠ .initialized → SameSetup a b

theorem silent_refl (a : DecoderState) : Silent a a :=
  ⟨rfl, rfl, rfl, le_rfl, rfl, rfl, rfl, id, fun _ => sameSetup_refl a⟩

/-- The element step is taken back, or complete (R12). -/
theorem silent_start (a : DecoderState) : Silent a { a with field := .start } :=
  ⟨rfl, rfl, rfl, le_rfl, rfl, rfl, rfl, id, fun _ => by constructor <;> rfl⟩

/-- A move to a state in which no command has anything left to produce. -/
theorem silent_goto (a : DecoderState) (f : Field) {r : RunningState} (hw : r ≠ .writeOutput) (hi : r ≠ .insertLoop)
    (hc : r ≠ .copyLoop) (hd : r ≠ .compoundDictionaryCopy) : Silent a { a with runningState := r, field := f } := by
  have hacc : ({ a with runningState := r, field := f } : DecoderState).Accounted := by
    apply accounted_of_state <;> simp [DecoderState.decodingState, hw, hi, hc, hd]
  exact ⟨rfl, rfl, rfl, le_rfl, rfl, rfl, rfl, fun _ => hacc, fun _ => by constructor <;> rfl⟩

theorem silent_error (a : DecoderState) (k : ErrorKind) :
    Silent a { a with runningState := .error k, field := .start } :=
  silent_goto a .start (by simp) (by simp) (by simp) (by simp)

/-- BlockStart (R223). -/
theorem silent_blockStart (s : State) : Silent s.st s.stepBlockStart.st := by
  unfold State.stepBlockStart
  dsimp only
  split
  · have hacc : ({ s.st with resumeState := .finished, runningState := .writeOutput } : DecoderState).Accounted := by
      apply accounted_of_state <;> simp [DecoderState.decodingState]
    exact ⟨rfl, rfl, rfl, le_rfl, rfl, rfl, rfl, fun _ => hacc, fun _ => by constructor <;> rfl⟩
  · exact silent_goto s.st s.st.field (by simp) (by simp) (by simp) (by simp)

@[simp] theorem deliverOutput_runningState (s : State) : s.deliverOutput.st.runningState = s.st.runningState := rfl
@[simp] theorem deliverOutput_resumeState (s : State) : s.deliverOutput.st.resumeState = s.st.resumeState := rfl
@[simp] theorem deliverOutput_field (s : State) : s.deliverOutput.st.field = s.st.field := rfl
@[simp] theorem deliverOutput_pos (s : State) : s.deliverOutput.st.pos = s.st.pos := rfl

/-- Delivered output leaves what is owed as it is (R388). -/
theorem silent_deliverOutput (s : State) : Silent s.st s.deliverOutput.st :=
  ⟨rfl, rfl, rfl, Nat.le_add_right _ _, rfl, rfl, rfl, id, fun _ => by constructor <;> rfl⟩

/-- WriteOutput is over: what is owed in the state it comes back to was owed before (R388). -/
theorem silent_resume {s : State} (hr : s.st.runningState = .writeOutput) :
    Silent s.st { s.deliverOutput.st with runningState := s.st.resumeState } := by
  have hacc : s.st.Accounted →
      ({ s.deliverOutput.st with runningState := s.st.resumeState } : DecoderState).Accounted := by
    simp [DecoderState.Accounted, DecoderState.decodingState, State.deliverOutput, hr]
  exact ⟨rfl, rfl, rfl, Nat.le_add_right _ _, rfl, rfl, rfl, hacc, fun _ => by constructor <;> rfl⟩

/-- A command sets up a session that has not begun to decode (R402 to R404). -/
theorem silent_configure {a : DecoderState} (hr : a.runningState = .initialized) (large eager : Bool) (n : Nat)
    (offsets : Vector Nat 16) (cd : List Byte) :
    Silent a { a with
      cfgLargeWindow := large, cfgEager := eager, cdNumChunks := n, cdChunkOffsets := offsets, CD := cd } :=
  ⟨rfl, rfl, rfl, le_rfl, rfl, rfl, rfl, id, fun h => absurd hr h⟩

/-- A `Decompress` begins (R405). -/
theorem silent_beginCall (a : DecoderState) (cap : Nat) : Silent a { a with outCap := cap, outCount := 0 } :=
  ⟨rfl, rfl, rfl, le_rfl, rfl, rfl, rfl, id, fun _ => by constructor <;> rfl⟩

/-- The control state stays, or moves as R41's table has it. -/
def LegalMove (a b : DecoderState) : Prop := b.runningState = a.runningState ∨ Transfer a b

/-- What one step from `s` leaves in the registers and the checkpoint of `t`. -/
inductive Moves (s t : State) : Prop
  /-- nothing is read or produced, from the registers at hand or those the element step began with; an element step
  still in progress is where it was -/
  | silent (a : DecoderState) (source : a = s.st ∨ a = s.base) (quiet : Silent a t.st) (legal : LegalMove s.st t.st)
      (ckpt : ∀ c, t.ckpt = some c → s.ckpt = some c ∧ t.st = s.st)
  /-- a row or an element step without one (R12), complete or not -/
  | row (n : Nat) (hc : s.inCall = true) (row : Row s.st n t.st)
      (ckpt : t.ckpt = if t.st.field = .start then none else some s.base)
  | reset (hc : s.inCall = false) (regs : t.st = .reset) (ckpt : t.ckpt = none)

/-- A silent step after which no element step is in progress. -/
theorem moves_silent {s t : State} (quiet : Silent s.st t.st) (legal : LegalMove s.st t.st) (ckpt : t.ckpt = none) :
    Moves s t :=
  .silent s.st (.inl rfl) quiet legal (by simp [ckpt])

theorem moves_stays {s t : State} (hst : t.st = s.st) (hckpt : t.ckpt = s.ckpt) : Moves s t :=
  .silent s.st (.inl rfl) (hst ▸ silent_refl s.st) (.inl (hst ▸ rfl)) fun _ hc => ⟨hckpt ▸ hc, hst⟩

theorem moves_fails {s t : State} (hopen : s.st.runningState ≠ .closed) (k : ErrorKind)
    (hst : t.st = { s.base with runningState := .error k, field := .start }) (hckpt : t.ckpt = none) : Moves s t :=
  .silent s.base (.inr rfl) (hst ▸ silent_error s.base k) (.inr (.error k hopen (hst ▸ rfl))) (by simp [hckpt])

/-- What a `Pull` does (R155): the source has none now, has ended, has failed, or hands over bytes. -/
theorem pull_cases (s : State) :
    (∃ src, s.pull = State.suspend { s with source := src }) ∨
    s.pull = { s with srcEOF := true } ∨
    (∃ src, s.pull = State.raise .readFailed { s with srcFail := true, source := src }) ∨
    ∃ xs src, s.pull = { s with IN := s.IN ++ xs, inLen := s.inLen + xs.length, source := src } := by
  unfold State.pull
  split
  · exact .inl ⟨s.source, rfl⟩
  · exact .inl ⟨_, rfl⟩
  · exact .inr (.inl rfl)
  · exact .inr (.inr (.inl ⟨_, rfl⟩))
  · exact .inl ⟨_, rfl⟩
  · exact .inr (.inr (.inr ⟨_, _, rfl⟩))

theorem moves_pull {s : State} (hi : BaseInv s) (hopen : s.st.runningState ≠ .closed) : Moves s s.pull := by
  obtain ⟨-, -, -, -, -, hrun, -⟩ := inv_base hi
  rcases pull_cases s with ⟨src, h⟩ | h | ⟨src, h⟩ | ⟨xs, src, h⟩ <;> rw [h]
  · exact .silent s.base (.inr rfl) (silent_start s.base) (.inl hrun) (by simp)
  · exact moves_stays rfl rfl
  · exact moves_fails hopen .readFailed rfl rfl
  · exact moves_stays rfl rfl

/-- WriteOutput delivers, and stays or goes back to where it was called from (R388). -/
theorem moves_writeOutput {s : State} (hi : BaseInv s) (hr : s.st.runningState = .writeOutput) :
    Moves s s.stepWriteOutput.commit := by
  have hfield : s.st.field = .start := internal_field (op := .writeOutput) hi hr (by simp)
  have hdelivered := hi.regs.delivered
  unfold State.stepWriteOutput
  dsimp only
  split
  · exact moves_silent (by simpa using silent_deliverOutput s) (.inl (by simp)) (by simp [hfield])
  · rename_i hall
    have hflushed : s.deliverOutput.st.flushed = s.st.pos := by
      have hle : s.deliverOutput.st.flushed ≤ s.st.pos := by simp only [State.deliverOutput]; omega
      exact Nat.le_antisymm hle (Nat.le_of_not_lt hall)
    refine moves_silent (by simpa using silent_resume hr) (.inr ?_) (by simp [hfield])
    exact .delivered hr (by simp) (by simpa using hflushed)

theorem moves_blockStart {s : State} (hi : BaseInv s) (hr : s.st.runningState = .blockStart) :
    Moves s s.stepBlockStart.commit := by
  have hfield : s.stepBlockStart.st.field = .start := by
    have hstart : s.st.field = .start := internal_field (op := .blockStart) hi hr (by simp)
    unfold State.stepBlockStart
    dsimp only
    split
    · exact hstart
    · exact hstart
  refine moves_silent (by simpa using silent_blockStart s) (.inr ?_) (by simp [hfield])
  rw [commit_st]
  unfold State.stepBlockStart
  dsimp only
  split
  · exact .lastFlush hr rfl ‹_› rfl
  · exact .nextHeader hr rfl (Bool.eq_false_iff.mpr ‹_›)

theorem moves_inCall {s t : State} (hi : BaseInv s) (hc : s.inCall = true) (h : step s = .next t) : Moves s t := by
  have hopen : s.st.runningState ≠ .closed := fun hr => not_sessionOver_of_inCall hc h (.inl hr)
  rcases call_cases hi hc h with
    rfl | ⟨k, rfl⟩ | ⟨n, b, rfl, hrow⟩ | ⟨hr, rfl⟩ | ⟨hr, rfl⟩ | ⟨hr, -, -, rfl⟩
  · exact moves_pull hi hopen
  · exact moves_fails hopen k rfl rfl
  · exact .row n hc (by simpa using hrow) (by simp)
  · exact moves_blockStart hi hr
  · exact moves_writeOutput hi hr
  · exact moves_silent (silent_start s.st) (.inl rfl) rfl

section
variable {s : State} (hckpt : s.ckpt = none)
include hckpt

omit hckpt in
theorem moves_commandIn (legal : RunningState) (misuse : ErrorKind) {effect : State → State}
    (he : s.st.runningState = legal → Moves s (effect s)) : Moves s (s.commandIn legal misuse effect) := by
  unfold State.commandIn
  split
  · exact moves_stays rfl rfl
  · exact moves_stays rfl rfl
  · rename_i hopen _
    split
    · exact he ‹_›
    · exact moves_fails (fun hr => hopen hr) misuse rfl rfl

theorem moves_attachChunk (hr : s.st.runningState = .initialized) (chunk : List Byte) :
    Moves s (s.attachChunk chunk) := by
  unfold State.attachChunk
  split
  · exact moves_fails (by simp [hr]) _ rfl rfl
  · exact moves_silent (silent_configure hr _ _ _ _ _) (.inl rfl) hckpt

theorem moves_beginCall (cap : Nat) : Moves s (s.beginCall cap) := by
  unfold State.beginCall
  split
  · exact moves_stays rfl rfl
  · exact moves_stays rfl rfl
  · rename_i hr
    exact moves_fails (by simp [hr]) _ rfl rfl
  · exact moves_silent (silent_beginCall _ _) (.inl rfl) hckpt

/-- What a host command does to the registers (R400 to R408, R480). -/
theorem moves_command (hc : s.inCall = false) {u : State} {src : List SourceAnswer} {chunk : List Byte} {cap : Nat}
    (he : Effect s (.hostCommand src chunk cap) u) : Moves s u := by
  cases he
  case reset => exact .reset hc rfl rfl
  case init =>
    refine moves_commandIn _ _ fun hr => moves_silent ?_ (.inr (.init hr rfl)) hckpt
    exact silent_goto s.st s.st.field (by simp) (by simp) (by simp) (by simp)
  case enableLargeWindow =>
    exact moves_commandIn _ _ fun hr => moves_silent (silent_configure hr _ _ _ _ _) (.inl rfl) hckpt
  case enableEagerOutput =>
    exact moves_commandIn _ _ fun hr => moves_silent (silent_configure hr _ _ _ _ _) (.inl rfl) hckpt
  case attach => exact moves_commandIn _ _ fun hr => moves_attachChunk hckpt hr chunk
  case decompress => exact moves_beginCall hckpt cap
  case close =>
    refine moves_silent ?_ (.inr (.close rfl)) hckpt
    exact silent_goto s.st s.st.field (by simp) (by simp) (by simp) (by simp)

end

/-- Committing changes no register, and the checkpoint of a complete step only. -/
theorem moves_commit {s u : State} (h : Moves s u) : Moves s u.commit := by
  cases h with
  | silent a source quiet legal ckpt =>
    refine .silent a source (by simpa using quiet) (by simpa using legal) fun c hc => ?_
    rw [commit_ckpt] at hc
    split at hc
    · cases hc
    · simpa using ckpt c hc
  | row n hc row ckpt => exact .row n hc (by simpa using row) (by simp [ckpt])
  | reset hc regs ckpt => exact .reset hc (by simpa using regs) (by simp [ckpt])

/-- Everything a step can do to the registers. -/
theorem step_moves {s t : State} (hi : BaseInv s) (h : step s = .next t) : Moves s t := by
  cases hc : s.inCall
  case true => exact moves_inCall hi hc h
  case false =>
    rcases step_host hc h with rfl | ⟨cmd, rest, u, -, he, rfl⟩
    · exact moves_stays rfl rfl
    · have hm := moves_command (s := { s with script := rest }) (hi.idle hc) hc he
      refine moves_commit ?_
      cases hm with
      | silent a source quiet legal ckpt => exact .silent a source quiet legal ckpt
      | row n hc row ckpt => exact .row n hc row ckpt
      | reset hc regs ckpt => exact .reset hc regs ckpt

/-! ## The control state (R41) -/

/-- Settles O52: a silent step moves legally, a row does what `Row` says, and a reset is a row of the table itself. -/
theorem onlyLegalTransfers : Obligations.OnlyLegalTransfers := by
  intro s t hi h
  cases step_moves hi.base h with
  | silent _ _ _ legal _ => exact legal
  | row _ _ row _ => exact row.transfer
  | reset _ regs _ => exact .inr (.reset regs)

/-- What holds of the registers and of the beginning of the element step in progress holds of the registers an error or
a suspension goes back to (R12). -/
theorem holds_base {p : DecoderState → Prop} {s : State} (hst : p s.st) (hckpt : ∀ c, s.ckpt = some c → p c) :
    p s.base := by
  unfold State.base
  cases hc : s.ckpt with
  | none => exact hst
  | some c => exact hckpt c hc

theorem holds_source {p : DecoderState → Prop} {s : State} {a : DecoderState} (ha : a = s.st ∨ a = s.base)
    (hst : p s.st) (hckpt : ∀ c, s.ckpt = some c → p c) : p a := by
  rcases ha with rfl | rfl
  · exact hst
  · exact holds_base hst hckpt

/-! ## The ring buffer mirrors the history (R34, R382) -/

/-- The stream header has not been read (R20). -/
def HeaderUnread (st : DecoderState) : Prop := st.runningState = .uninitialized ∨ st.runningState = .initialized

/-- No legal move leads back before the stream header, but for a reset (R41). -/
theorem headerUnread_of_legalMove {a b : DecoderState} (hi : RegsInv a) (h : LegalMove a b) (hb : HeaderUnread b) :
    HeaderUnread a ∨ b = .reset := by
  rcases h with hsame | h
  · exact .inl (by simpa only [HeaderUnread, hsame] using hb)
  · cases h
    case init hrun _ => exact .inl (.inl hrun)
    case reset hreset => exact .inr hreset
    case delivered hrun hback _ =>
      have hres := hi.resume hrun
      rcases hb with hb | hb <;> rw [← hback, hb] at hres <;> cases hres
    all_goals simp_all [HeaderUnread]

/-- Nothing has been produced before the stream header, and no legal move changes that. -/
theorem fresh_of_legalMove {a b : DecoderState} (hi : RegsInv a) (h : LegalMove a b) (ha : HeaderUnread a → b.H = []) :
    HeaderUnread b → b.H = [] := by
  intro hb
  rcases headerUnread_of_legalMove hi h hb with hu | rfl
  · exact ha hu
  · rfl

theorem mirrorsHistory_of_same {a b : DecoderState} (h : MirrorsHistory a) (hRB : b.RB = a.RB) (hH : b.H = a.H)
    (hpos : b.pos = a.pos) (hw : b.windowBits = a.windowBits) (hfresh : HeaderUnread b → b.H = []) :
    MirrorsHistory b := by
  have hRS : b.RS = a.RS := by simp [DecoderState.RS, hw]
  refine ⟨?_, ?_, hfresh⟩
  · rw [hRB, hH, hpos, hRS]; exact h.latest
  · rw [hRB, hpos]; exact h.untouched

/-- Two positions less than `RS` apart have different cells (R382). -/
theorem cell_ne {i pos RS : Nat} (hlt : i < pos) (hnear : pos < i + RS) : i % RS ≠ pos % RS := by
  intro h
  have hdvd : RS ∣ pos - i := (Nat.modEq_iff_dvd' hlt.le).mp h
  exact Nat.not_dvd_of_pos_of_lt (by omega) (by omega) hdvd

theorem mirrorsHistory_emit {a : DecoderState} (h : MirrorsHistory a) (hwf : a.RB.wf) (hp : a.pos = a.H.length)
    (hu : ¬ HeaderUnread a) (b : Byte) : MirrorsHistory (a.emit b) := by
  have hRS : (a.emit b).RS = a.RS := rfl
  refine ⟨fun i hi hnear => ?_, fun i hi => ?_, fun hfresh => absurd hfresh hu⟩
  · rw [emit_pos] at hi hnear
    rw [hRS] at hnear ⊢
    rw [emit_RB, emit_H, Memory.read_write hwf, List.getD_eq_getElem?_getD]
    by_cases hlast : i = a.pos
    · subst hlast
      rw [if_pos rfl, hp, List.getElem?_concat_length]
      rfl
    · have hlt : i < a.pos := by omega
      rw [if_neg (cell_ne hlt (by omega)), h.latest i hlt (by omega), List.getElem?_append_left (by omega),
        List.getD_eq_getElem?_getD]
  · rw [emit_pos] at hi
    have hcell : a.pos % a.RS ≤ a.pos := Nat.mod_le _ _
    rw [emit_RB, Memory.read_write hwf, if_neg (by omega)]
    exact h.untouched i (by omega)

theorem mirrorsHistory_emitAll {a : DecoderState} (h : MirrorsHistory a) (hwf : a.RB.wf) (hp : a.pos = a.H.length)
    (hu : ¬ HeaderUnread a) (bs : List Byte) : MirrorsHistory (bs.foldl DecoderState.emit a) := by
  induction bs generalizing a with
  | nil => exact h
  | cons b bs ih =>
    exact ih (mirrorsHistory_emit h hwf hp hu b) (Memory.wf_write hwf _ _) (by simp [hp]) hu

theorem mirrorsHistory_emits {a b : DecoderState} {bs : List Byte} (h : MirrorsHistory a) (hi : RegsInv a)
    (hu : ¬ HeaderUnread a) (he : Emits a b bs) (hw : b.windowBits = a.windowBits)
    (hfresh : HeaderUnread b → b.H = []) : MirrorsHistory b := by
  have hall := mirrorsHistory_emitAll h hi.ringBuffer hi.produced hu bs
  have heq := emitAll_eq a bs
  refine mirrorsHistory_of_same hall he.RB ?_ ?_ ?_ hfresh
  · rw [heq, he.H]
  · rw [heq, he.pos]
  · rw [heq, hw]

/-- The stream header sets the size of a ring that is still empty (R220, R380). -/
theorem mirrorsHistory_window {a b : DecoderState} (h : MirrorsHistory a) (hi : RegsInv a)
    (hr : a.runningState = .initialized) (hq : Quiet a b) : MirrorsHistory b := by
  have hH : b.H = [] := hq.H.trans (h.fresh (.inr hr))
  have hpos : b.pos = 0 := by rw [hq.pos, hi.produced, h.fresh (.inr hr)]; rfl
  refine ⟨fun i hlt => absurd hlt (by omega), ?_, fun _ => hH⟩
  rw [hq.RB, hq.pos]
  exact h.untouched

theorem mirrorsHistory_row {a b : DecoderState} {n : Nat} (h : MirrorsHistory a) (hi : RegsInv a) (hrow : Row a n b) :
    MirrorsHistory b := by
  cases hrow.outcome with
  | window hr hq => exact mirrorsHistory_window h hi hr hq
  | quiet hr hq hs =>
    exact mirrorsHistory_of_same h hq.RB hq.H hq.pos hs.windowBits.symm
      (fresh_of_legalMove hi hrow.transfer fun hu => hq.H.trans (h.fresh hu))
  | emits hr bs he hs =>
    have hu : ¬ HeaderUnread a := not_or.mpr hr
    exact mirrorsHistory_emits h hi hu he hs.windowBits.symm
      (fresh_of_legalMove hi hrow.transfer fun hu' => absurd hu' hu)

/-- Settles O51: silent steps leave the ring alone, a row emits its bytes one by one. -/
theorem stepKeepsTheRingMirror : Obligations.StepKeepsTheRingMirror := by
  intro s t hi hring h
  obtain ⟨hst, hckpt⟩ := hring
  cases step_moves hi.base h with
  | silent a source quiet legal hc =>
    have ha : MirrorsHistory a := holds_source source hst hckpt
    obtain ⟨-, hbaseH, -⟩ := inv_base hi.base
    have haH : a.H = s.st.H := by rcases source with rfl | rfl; exacts [rfl, hbaseH]
    have hfresh := fresh_of_legalMove hi.base.regs legal fun hu => (quiet.H.trans haH).trans (hst.fresh hu)
    exact ⟨mirrorsHistory_of_same ha quiet.RB quiet.H quiet.pos quiet.windowBits hfresh,
      fun c ht => hckpt c (hc c ht).1⟩
  | row n _ row hc =>
    refine ⟨mirrorsHistory_row hst hi.base.regs row, fun c ht => ?_⟩
    rw [hc] at ht
    split at ht
    · cases ht
    · exact Option.some.inj ht ▸ holds_base hst hckpt
  | reset _ regs hc => exact ⟨regs ▸ mirrorsHistory_reset, by simp [hc]⟩

/-! ## The meta-block's length is accounted for (R26, R286, R324, R373) -/

/-- The stream header leaves the meta-block's length alone (R220). -/
theorem streamHeader_metaBlockLength {s t : State} (hc : s.inCall = true) (hr : s.st.runningState = .initialized)
    (h : step s = .next t) :
    t.st.metaBlockLength = s.st.metaBlockLength ∨ t.st.metaBlockLength = s.base.metaBlockLength := by
  rcases step_inCall hc h with ⟨op, hat, rfl⟩ | ⟨-, rfl⟩ | ⟨k, rfl⟩ | ⟨c, n, u, hat, -, he, rfl⟩
  · exfalso
    cases op <;> simp [AtInternal, hr] at hat
  · rcases pull_cases s with ⟨src, h⟩ | h | ⟨src, h⟩ | ⟨xs, src, h⟩ <;> rw [h]
    · exact .inr rfl
    · exact .inl rfl
    · exact .inr rfl
    · exact .inl rfl
  · exact .inr rfl
  · rw [commit_st]
    cases he <;> simp only [At, hr, reduceCtorEq, false_and, and_false, or_false] at hat
    case window => exact .inl rfl
    case largeWindow =>
      unfold State.setLargeWindow
      split
      · rw [advance_raise]; exact .inr rfl
      · exact .inl rfl
    case reservedWindow => rw [advance_raise]; exact .inr rfl

section
variable {s t : State} (hi : BaseInv s) (ha : AccountedInv s)
include hi ha

omit hi in
theorem accounted_base : s.base.Accounted := holds_base ha.1 fun c hc => (ha.2 c hc).1

/-- Outside the meta-block header an element step in progress has not changed the length. -/
theorem base_metaBlockLength (hr : s.st.runningState ≠ .metablockHeader) :
    s.base.metaBlockLength = s.st.metaBlockLength := by
  obtain ⟨-, -, -, -, -, hrun, -⟩ := inv_base hi
  exact holds_base (p := fun c => c.runningState ≠ .metablockHeader → c.metaBlockLength = s.st.metaBlockLength)
    (fun _ => rfl) (fun c hc => (ha.2 c hc).2) (hrun ▸ hr)

/-- What a command still has to produce fits after the step as well. -/
theorem accountedInv_step (h : step s = .next t) : AccountedInv t := by
  cases step_moves hi h with
  | silent a source quiet _ hc =>
    refine ⟨quiet.accounted (holds_source source ha.1 fun c hc => (ha.2 c hc).1), fun c ht => ?_⟩
    obtain ⟨hs, hst⟩ := hc c ht
    exact hst ▸ ha.2 c hs
  | row n _ row hc =>
    refine ⟨row.accounted ha.1, fun c ht => ?_⟩
    rw [hc] at ht
    split at ht
    · cases ht
    · cases ht
      obtain ⟨-, -, -, -, -, hrun, -⟩ := inv_base hi
      refine ⟨accounted_base ha, fun hr => ?_⟩
      rw [hrun] at hr
      rw [base_metaBlockLength hi ha hr, (row.counted ‹_›).resolve_left hr]
  | reset _ regs hc => exact ⟨regs ▸ accounted_reset, by simp [hc]⟩

/-- Every byte a step of a call produces is taken off the meta-block's length. -/
theorem produced_counted (hc : s.inCall = true) (hheader : s.st.runningState ≠ .metablockHeader)
    (hmeta : s.st.runningState ≠ .metadata) (h : step s = .next t) :
    t.st.H.length + t.st.metaBlockLength = s.st.H.length + s.st.metaBlockLength := by
  obtain ⟨-, hbaseH, -⟩ := inv_base hi
  have hbase := base_metaBlockLength hi ha hheader
  cases step_moves hi h with
  | silent a source quiet _ _ =>
    rw [quiet.H, quiet.metaBlockLength]
    rcases source with rfl | rfl
    · rfl
    · rw [hbaseH, hbase]
  | row n _ row _ =>
    cases row.outcome with
    | window hr hq =>
      rw [hq.H, (streamHeader_metaBlockLength hc hr h).elim id fun hb => hb.trans hbase]
    | quiet _ hq _ hlen =>
      rw [hq.H, hlen.resolve_right (not_or.mpr ⟨hheader, hmeta⟩)]
    | emits _ bs he _ _ hfits =>
      have hle := hfits ha.1
      rw [he.H, he.metaBlockLength, List.length_append]
      omega
  | reset hidle _ _ => exact absurd (hidle.symm.trans hc) (by simp)

end

/-- Settles O54: a row emits no more than the length left and takes off what it emits; nothing else produces bytes. -/
theorem blockLengthIsAccounted : Obligations.BlockLengthIsAccounted := by
  intro s t hi ha h
  exact ⟨accountedInv_step hi.base ha h, fun hc hheader hmeta => produced_counted hi.base ha hc hheader hmeta h⟩

/-! ## What no step changes, and what only grows (R6, R22, R24, R44, R73, R389) -/

/-- The build's parameters are the same, and short of a reset the stream pulled has grown (R6, R24, R36). -/
structure SameBuild (s t : State) : Prop where
  params : t.params = s.params
  rom : t.rom = s.rom
  IN : t.st = .reset ∨ ∃ xs, t.IN = s.IN ++ xs

theorem sameBuild_of_eq {s t : State} (hparams : t.params = s.params) (hrom : t.rom = s.rom) (hIN : t.IN = s.IN) :
    SameBuild s t :=
  ⟨hparams, hrom, .inr ⟨[], by rw [hIN, List.append_nil]⟩⟩

theorem sameBuild_pull (s : State) : SameBuild s s.pull := by
  rcases pull_cases s with ⟨src, h⟩ | h | ⟨src, h⟩ | ⟨xs, src, h⟩ <;> rw [h]
  · exact sameBuild_of_eq rfl rfl rfl
  · exact sameBuild_of_eq rfl rfl rfl
  · exact sameBuild_of_eq rfl rfl rfl
  · exact ⟨rfl, rfl, .inr ⟨xs, rfl⟩⟩

theorem sameBuild_commit {s u : State} (h : SameBuild s u) : SameBuild s u.commit :=
  ⟨by simpa using h.params, by simpa using h.rom, by simpa using h.IN⟩

theorem sameBuild_writeOutput (s : State) : SameBuild s s.stepWriteOutput := by
  unfold State.stepWriteOutput
  dsimp only
  split
  · exact sameBuild_of_eq rfl rfl rfl
  · exact sameBuild_of_eq rfl rfl rfl

theorem sameBuild_commandIn {s : State} (legal : RunningState) (misuse : ErrorKind) {effect : State → State}
    (he : SameBuild s (effect s)) : SameBuild s (s.commandIn legal misuse effect) := by
  unfold State.commandIn
  split
  · exact sameBuild_of_eq rfl rfl rfl
  · exact sameBuild_of_eq rfl rfl rfl
  · split
    · exact he
    · exact sameBuild_of_eq rfl rfl rfl

theorem sameBuild_command {s u : State} {src : List SourceAnswer} {chunk : List Byte} {cap : Nat}
    (he : Effect s (.hostCommand src chunk cap) u) : SameBuild s u := by
  cases he
  case reset => exact ⟨rfl, rfl, .inl rfl⟩
  case init | enableLargeWindow | enableEagerOutput => exact sameBuild_commandIn _ _ (sameBuild_of_eq rfl rfl rfl)
  case attach =>
    refine sameBuild_commandIn _ _ ?_
    unfold State.attachChunk
    split
    · exact sameBuild_of_eq rfl rfl rfl
    · exact sameBuild_of_eq rfl rfl rfl
  case decompress =>
    unfold State.beginCall
    split <;> exact sameBuild_of_eq rfl rfl rfl
  case close => exact sameBuild_of_eq rfl rfl rfl

theorem step_sameBuild {s t : State} (hi : BaseInv s) (h : step s = .next t) : SameBuild s t := by
  cases hc : s.inCall
  case true =>
    rcases call_cases hi hc h with rfl | ⟨k, rfl⟩ | ⟨n, b, rfl, -⟩ | ⟨-, rfl⟩ | ⟨-, rfl⟩ | ⟨-, -, -, rfl⟩
    · exact sameBuild_pull s
    · exact sameBuild_of_eq rfl rfl rfl
    · exact sameBuild_commit (sameBuild_of_eq rfl rfl rfl)
    · exact sameBuild_commit (sameBuild_of_eq rfl rfl rfl)
    · exact sameBuild_commit (sameBuild_writeOutput s)
    · exact sameBuild_of_eq rfl rfl rfl
  case false =>
    rcases step_host hc h with rfl | ⟨cmd, rest, u, -, he, rfl⟩
    · exact sameBuild_of_eq rfl rfl rfl
    · have hu : SameBuild s u := by
        obtain ⟨hparams, hrom, hIN⟩ := sameBuild_command he
        exact ⟨hparams, hrom, hIN⟩
      exact sameBuild_commit hu

/-- A longer part of a longer history begins with the shorter part. -/
theorem take_append_grows (H bs : List Byte) {m n : Nat} (hmn : m ≤ n) (hm : m ≤ H.length) :
    ∃ os, (H ++ bs).take n = H.take m ++ os := by
  rw [← List.take_append_of_le_length (l₂ := bs) hm]
  obtain ⟨os, hos⟩ := List.take_prefix_take_left (l := H ++ bs) hmn
  exact ⟨os, hos.symm⟩

/-- What one step adds to the history, and that nothing delivered or consumed is taken back, short of a reset. -/
theorem step_grows {s t : State} (hi : BaseInv s) (h : step s = .next t) :
    t.st = .reset ∨
      (∃ bs, t.st.H = s.st.H ++ bs) ∧ s.st.flushed ≤ t.st.flushed ∧ s.base.bitpos ≤ t.st.bitpos := by
  obtain ⟨-, hH, hflushed, hbitpos, -⟩ := inv_base hi
  cases step_moves hi h with
  | silent a source quiet _ _ =>
    have ha : a.H = s.st.H ∧ a.flushed = s.st.flushed ∧ s.base.bitpos ≤ a.bitpos := by
      rcases source with rfl | rfl
      · exact ⟨rfl, rfl, hbitpos⟩
      · exact ⟨hH, hflushed, le_rfl⟩
    obtain ⟨haH, haflushed, habitpos⟩ := ha
    exact .inr ⟨⟨[], by rw [quiet.H, haH, List.append_nil]⟩, haflushed ▸ quiet.flushed, quiet.bitpos ▸ habitpos⟩
  | row n _ row _ =>
    have hpos : s.base.bitpos ≤ t.st.bitpos := by have := row.bitpos; omega
    refine .inr ?_
    cases row.outcome with
    | window _ hq => exact ⟨⟨[], by rw [hq.H, List.append_nil]⟩, hq.flushed.ge, hpos⟩
    | quiet _ hq => exact ⟨⟨[], by rw [hq.H, List.append_nil]⟩, hq.flushed.ge, hpos⟩
    | emits _ bs he => exact ⟨⟨bs, he.H⟩, he.flushed.ge, hpos⟩
  | reset _ regs _ => exact .inl regs

/-- Settles O55: the output is the delivered part of the history before and after the step, and both grow. -/
theorem historyOnlyGrows : Obligations.HistoryOnlyGrows := by
  intro s t hi h
  have ht := (stateInv_step hi h).base
  rcases (step_sameBuild hi.base h).IN with hreset | ⟨xs, hIN⟩
  · exact .inl hreset
  rcases step_grows hi.base h with hreset | ⟨⟨bs, hH⟩, hflushed, hbitpos⟩
  · exact .inl hreset
  have hdelivered : s.st.flushed ≤ s.st.H.length := hi.base.regs.produced ▸ hi.base.regs.delivered
  obtain ⟨os, hos⟩ := take_append_grows s.st.H bs hflushed hdelivered
  exact .inr ⟨xs, bs, os, hIN, hH, by rw [ht.output, hH, hos, hi.base.output], hbitpos⟩

theorem sameSetup_base {s : State} (hs : SetupInv s) : SameSetup s.base s.st :=
  holds_base (p := fun c => SameSetup c s.st) (sameSetup_refl _) hs

theorem setupInv_step {s t : State} (hi : BaseInv s) (hs : SetupInv s) (h : step s = .next t) : SetupInv t := by
  intro c hc
  cases step_moves hi h with
  | silent _ _ _ _ hck =>
    obtain ⟨hc', hst⟩ := hck c hc
    exact hst ▸ hs c hc'
  | row n _ row hck =>
    rw [hck] at hc
    split at hc
    · cases hc
    · obtain rfl := Option.some.inj hc
      refine sameSetup_trans (sameSetup_base hs) ?_
      cases row.outcome with
      | window _ _ hstart _ => contradiction
      | quiet _ _ hsame _ => exact hsame
      | emits _ _ _ hsame => exact hsame
  | reset _ _ hck => simp [hck] at hc

/-- After the stream header a step changes the setup by a reset only (R22, R25, R44). -/
theorem step_setup {s t : State} (hi : BaseInv s) (hs : SetupInv s) (hr : s.st.runningState ≠ .initialized)
    (h : step s = .next t) : SameSetup s.st t.st ∨ t.st = .reset := by
  obtain ⟨-, -, -, -, -, hrun, -⟩ := inv_base hi
  cases step_moves hi h with
  | silent a source quiet _ _ =>
    left
    rcases source with rfl | rfl
    · exact quiet.setup hr
    · have hb := sameSetup_base hs
      have hback : SameSetup s.st s.base :=
        ⟨hb.1.symm, hb.2.symm, hb.3.symm, hb.4.symm, hb.5.symm, hb.6.symm, hb.7.symm, hb.8.symm⟩
      exact sameSetup_trans hback (quiet.setup (hrun ▸ hr))
  | row n _ row _ =>
    left
    cases row.outcome with
    | window hinit => exact absurd hinit hr
    | quiet _ _ hsame _ => exact hsame
    | emits _ _ _ hsame => exact hsame
  | reset _ regs _ => exact .inr regs

/-- Settles O56: a row after the stream header keeps the setup, and an element step in progress began with the same. -/
theorem setupIsFixed : Obligations.SetupIsFixed := by
  intro s t hi hs h
  have hbuild := step_sameBuild hi.base h
  exact ⟨setupInv_step hi.base hs h, hbuild.params, hbuild.rom, fun _ hr => step_setup hi.base hs hr h⟩

/-! ## How a call ends (R43, R156, R388, R392, R405) -/

/-- The call has returned status `x` with the count of the bytes in the host's buffer, and the status values keep both
(R43, R405). -/
structure Returned (t : State) (x : Status) : Prop where
  result : t.result = .decompressed t.st.outCount x
  report : t.report = some ⟨t.st.outCount, x⟩
  buffer : t.HOSTBUF.length = t.st.outCount

theorem Returned.bytesWritten {t : State} {x : Status} (h : Returned t x) : t.HOSTBUF.length = t.bytesWritten := by
  rw [h.buffer, State.bytesWritten, h.report]

/-- The step from `s` ended the call in `t`. -/
inductive CallEnds (s t : State) : Prop
  | needMoreInput (more : s.srcEOF = false) (regs : t.st = { s.base with field := .start })
      (returned : Returned t .needMoreInput)
  | needMoreOutput (state : t.st.runningState = .writeOutput) (full : t.st.outCap = 0) (left : t.st.flushed < t.st.pos)
      (returned : Returned t .needMoreOutput)
  | done (state : t.st.runningState = .finished) (eof : s.srcEOF = true) (consumed : t.st.bitpos = 8 * t.inLen)
      (returned : Returned t .done)
  | error (k : ErrorKind) (state : t.st.runningState = .error k) (returned : Returned t (.error k))

theorem length_deliverable {s : State} (hi : RegsInv s.st) :
    s.deliverable.length = min (s.st.pos - s.st.flushed) s.st.outCap := by
  have hpos := hi.produced
  simp only [State.deliverable, List.length_take, List.length_drop]
  omega

section
variable {s : State} (hi : BaseInv s) (hc : s.inCall = true)
include hi hc

theorem buffer_base : s.HOSTBUF.length = s.base.outCount := by
  obtain ⟨-, -, -, -, -, -, hcount⟩ := inv_base hi
  rw [hcount]
  exact hi.buffer hc

theorem callEnds_raise (k : ErrorKind) : CallEnds s (s.raise k) := by
  have hbuffer := buffer_base hi hc
  exact .error k rfl ⟨by simp [hc], by simp [hc], hbuffer⟩

/-- Only a suspension and a failure of the source end the call (R155, R156). -/
theorem callEnds_pull (hmore : s.srcEOF = false) (hend : s.pull.inCall = false) : CallEnds s s.pull := by
  have hbuffer := buffer_base hi hc
  rcases pull_cases s with ⟨src, h⟩ | h | ⟨src, h⟩ | ⟨xs, src, h⟩ <;> rw [h] at hend ⊢
  · exact .needMoreInput hmore rfl ⟨rfl, rfl, hbuffer⟩
  · exact absurd (hc.symm.trans hend) (by simp)
  · exact .error .readFailed rfl ⟨by simp [hc], by simp [hc], hbuffer⟩
  · exact absurd (hc.symm.trans hend) (by simp)

/-- WriteOutput ends the call where bytes are left, and then the host's buffer is full (R388). -/
theorem callEnds_writeOutput (hr : s.st.runningState = .writeOutput) (hend : s.stepWriteOutput.inCall = false) :
    CallEnds s s.stepWriteOutput.commit := by
  unfold State.stepWriteOutput at hend ⊢
  dsimp only at hend ⊢
  split at hend
  · rename_i hleft
    rw [if_pos hleft]
    have hcap : s.deliverOutput.st.outCap = 0 := by
      simp only [State.deliverOutput] at hleft ⊢
      omega
    have hbuffer : s.deliverOutput.HOSTBUF.length = s.deliverOutput.st.outCount := by
      simp only [State.deliverOutput, List.length_append, length_deliverable hi.regs, hi.buffer hc]
    exact .needMoreOutput (by simpa using hr) (by simpa using hcap) (by simpa using hleft)
      ⟨by simp, by simp, by simpa using hbuffer⟩
  · exact absurd (hc.symm.trans hend) (by simp)

/-- The end of the stream ends the call, or more is asked for (R159, R392). -/
theorem callEnds_atEnd (hat : AtInternal s.st .atEnd) (hend : s.stepAtEnd.inCall = false) :
    CallEnds s s.stepAtEnd.commit := by
  obtain ⟨hr, hfield⟩ := hat
  unfold State.stepAtEnd at hend ⊢
  split at hend
  · rw [if_pos ‹_›]
    exact callEnds_raise hi hc _
  · rename_i hconsumed
    rw [if_neg hconsumed]
    split at hend
    · rw [if_pos ‹_›]
      have hcursor := hi.cursor
      exact .done hr ‹_› (show s.st.bitpos = 8 * s.inLen by omega) ⟨rfl, rfl, hi.buffer hc⟩
    · rename_i hmore
      rw [if_neg hmore, pull_commit (by simp [hfield])]
      exact callEnds_pull hi hc (Bool.eq_false_iff.mpr hmore) hend

/-- The other element steps without a row end the call with an error only. -/
theorem callEnds_internal {op : Internal} (hat : AtInternal s.st op) (hend : (op.run s).inCall = false) :
    CallEnds s (op.run s).commit := by
  by_cases hw : op = .writeOutput
  · subst hw
    exact callEnds_writeOutput hi hc hat hend
  by_cases he : op = .atEnd
  · subst he
    exact callEnds_atEnd hi hc hat hend
  by_cases hb : op = .blockStart
  · subst hb
    exact absurd (hc.symm.trans hend) (by simp)
  rcases internal_ends hat hb hw he with ⟨k, h⟩ | ⟨b, h, -⟩ <;> rw [h] at hend ⊢
  · exact callEnds_raise hi hc k
  · exact absurd (hc.symm.trans hend) (by simp)

end

/-- Every step of a call that ends it ends it in one of the four ways. -/
theorem step_callEnds {s t : State} (hi : BaseInv s) (hc : s.inCall = true) (h : step s = .next t)
    (hend : t.inCall = false) : CallEnds s t := by
  rcases step_inCall hc h with ⟨op, hat, rfl⟩ | ⟨hmore, rfl⟩ | ⟨k, rfl⟩ | ⟨c, n, u, hat, -, he, rfl⟩
  · exact callEnds_internal hi hc hat (by simpa using hend)
  · exact callEnds_pull hi hc hmore hend
  · exact callEnds_raise hi hc k
  · rcases effect_ends hi hat he with ⟨k, rfl⟩ | ⟨b, rfl, -⟩
    · exact callEnds_raise hi hc k
    · simp [hc] at hend

/-- Settles O57: each of the four ends of a call returns its count and keeps it in the status values. -/
theorem howACallEnds : Obligations.HowACallEnds := by
  intro s t hi hc h hend
  cases step_callEnds hi.base hc h hend with
  | needMoreInput more regs returned =>
    have hcount : t.st.outCount = s.base.outCount := by rw [regs]
    exact ⟨returned.bytesWritten, .inl ⟨more, regs, hcount ▸ returned.result, hcount ▸ returned.report⟩⟩
  | needMoreOutput state full left returned =>
    exact ⟨returned.bytesWritten, .inr (.inl ⟨state, full, left, returned.result, returned.report⟩)⟩
  | done state eof consumed returned =>
    exact ⟨returned.bytesWritten, .inr (.inr (.inl ⟨state, eof, consumed, returned.result, returned.report⟩))⟩
  | error k state returned =>
    exact ⟨returned.bytesWritten, .inr (.inr (.inr ⟨k, state, returned.result, returned.report⟩))⟩

/-! ## The hidden bit reader (R46, R160) -/

/-- The bytes `bs` as one number, earlier bytes in lower-order bits (R7, R80). -/
def streamNat (bs : List Byte) : Nat := bs.foldr (fun b v => b.toNat + 256 * v) 0

@[simp] theorem streamNat_nil : streamNat [] = 0 := rfl

@[simp] theorem streamNat_cons (b : Byte) (bs : List Byte) : streamNat (b :: bs) = b.toNat + 256 * streamNat bs := rfl

theorem streamNat_drop (bs : List Byte) (k : Nat) : streamNat (bs.drop k) = streamNat bs / 256 ^ k := by
  induction k generalizing bs with
  | zero => simp
  | succ k ih =>
    cases bs with
    | nil => simp
    | cons b bs =>
      have hb := b.isLt
      have hhead : (b.toNat + 256 * streamNat bs) / 256 = streamNat bs := by omega
      rw [List.drop_succ_cons, ih, streamNat_cons, Nat.pow_succ', ← Nat.div_div_eq_div_mul, hhead]

theorem streamNat_take (bs : List Byte) (k : Nat) : streamNat (bs.take k) = streamNat bs % 256 ^ k := by
  induction k generalizing bs with
  | zero => simp [Nat.mod_one]
  | succ k ih =>
    cases bs with
    | nil => simp
    | cons b bs =>
      have hb := b.isLt
      have hhead : (b.toNat + 256 * streamNat bs) / 256 = streamNat bs := by omega
      have hlow : (b.toNat + 256 * streamNat bs) % 256 = b.toNat := by omega
      rw [List.take_succ_cons, streamNat_cons, ih, streamNat_cons, Nat.pow_succ', Nat.mod_mul, hhead, hlow]

theorem two_pow_eight_mul (q : Nat) : 256 ^ q = 2 ^ (8 * q) := by rw [Nat.pow_mul]

/-- The first 65 bits of the window at bit `p` are the stream's (R151). -/
theorem streamValue_mod (bs : List Byte) (p : Nat) {k : Nat} (hk : k ≤ 65) :
    streamValue bs p % 2 ^ k = streamNat bs / 2 ^ p % 2 ^ k := by
  have hbytes : streamValue bs p = streamNat ((bs.drop (p / 8)).take 9) / 2 ^ (p % 8) := rfl
  have hsplit : 256 ^ 9 = 2 ^ (p % 8) * 2 ^ (72 - p % 8) := by
    rw [← Nat.pow_add, show p % 8 + (72 - p % 8) = 72 by omega]
    decide
  have hp : 2 ^ p = 256 ^ (p / 8) * 2 ^ (p % 8) := by
    rw [two_pow_eight_mul, ← Nat.pow_add, Nat.div_add_mod]
  rw [hbytes, streamNat_take, streamNat_drop, hsplit, Nat.mod_mul_right_div_self, Nat.div_div_eq_div_mul, ← hp,
    Nat.mod_mod_of_dvd _ (Nat.pow_dvd_pow 2 (by omega))]

/-- The next word of the input ring (R161). -/
theorem ringWord_drop (bs : List Byte) (q : Nat) :
    ringWord (bs.drop q) = streamNat bs / 2 ^ (8 * q) % 2 ^ 32 := by
  have hbytes : ringWord (bs.drop q) = streamNat ((bs.drop q).take 4) := rfl
  rw [hbytes, streamNat_take, streamNat_drop, two_pow_eight_mul q]
  rfl

theorem ringWord_lt (bs : List Byte) : ringWord bs < 2 ^ 32 := by
  have hword := ringWord_drop bs 0
  rw [List.drop_zero] at hword
  exact hword ▸ Nat.mod_lt _ (by decide)

section
variable {r : BitReader} {bs : List Byte} {p : Nat} (h : r.Represents bs p)
include h

/-- The valid bits are those of the stream from bit `p` on. -/
theorem represents_acc : r.acc.toNat / 2 ^ r.bitOffset = streamNat bs / 2 ^ p % 2 ^ r.valid := by
  obtain ⟨-, -, hacc, -⟩ := h
  rw [hacc, streamValue_mod bs p (by unfold BitReader.valid; omega)]

theorem readFewBits_value {n : Nat} (hn : r.bitOffset + n ≤ 64) :
    (r.readFewBits n).1 = streamNat bs / 2 ^ p % 2 ^ n := by
  have hvalid : n ≤ r.valid := by unfold BitReader.valid; omega
  rw [BitReader.readFewBits, represents_acc h, Nat.mod_mod_of_dvd _ (Nat.pow_dvd_pow 2 hvalid)]

theorem readFewBits_represents {n : Nat} (hn : r.bitOffset + n ≤ 64) :
    (r.readFewBits n).2.Represents bs (p + n) := by
  have hvalid : r.valid = n + (r.readFewBits n).2.valid := by
    simp only [BitReader.valid, BitReader.readFewBits]
    omega
  have hend : p + n + (r.readFewBits n).2.valid = p + r.valid := by omega
  have hacc := represents_acc h
  obtain ⟨-, halign, -, hring⟩ := h
  refine ⟨hn, hend ▸ halign, ?_, hend ▸ hring⟩
  rw [streamValue_mod bs (p + n) (by unfold BitReader.valid; omega)]
  show r.acc.toNat / 2 ^ (r.bitOffset + n) = _
  rw [Nat.pow_add, ← Nat.div_div_eq_div_mul, hacc, hvalid, Nat.pow_add, Nat.mod_mul_right_div_self,
    Nat.div_div_eq_div_mul, ← Nat.pow_add]

/-- The word that comes in stands right above the valid bits (R160). -/
theorem reload_acc (ho : 32 ≤ r.bitOffset) :
    (ringWord r.ring * 2 ^ 32 + r.acc.toNat / 2 ^ 32) / 2 ^ (r.bitOffset - 32) =
      streamNat bs / 2 ^ p % 2 ^ (r.valid + 32) := by
  have hacc := represents_acc h
  obtain ⟨hle, halign, -, hring⟩ := h
  have hword : ringWord r.ring = streamNat bs / 2 ^ p / 2 ^ r.valid % 2 ^ 32 := by
    rw [hring, ringWord_drop, show 8 * ((p + r.valid) / 8) = p + r.valid by omega, Nat.pow_add,
      Nat.div_div_eq_div_mul]
  have hshift : ringWord r.ring * 2 ^ 32 = 2 ^ (r.bitOffset - 32) * (ringWord r.ring * 2 ^ r.valid) := by
    rw [show 2 ^ 32 = 2 ^ (r.bitOffset - 32) * 2 ^ r.valid by
      rw [← Nat.pow_add, show r.bitOffset - 32 + r.valid = 32 by unfold BitReader.valid; omega]]
    ring
  have hdrop : r.acc.toNat / 2 ^ 32 / 2 ^ (r.bitOffset - 32) = r.acc.toNat / 2 ^ r.bitOffset := by
    rw [Nat.div_div_eq_div_mul, ← Nat.pow_add, Nat.add_sub_cancel' ho]
  calc (ringWord r.ring * 2 ^ 32 + r.acc.toNat / 2 ^ 32) / 2 ^ (r.bitOffset - 32)
      = ringWord r.ring * 2 ^ r.valid + r.acc.toNat / 2 ^ r.bitOffset := by
        rw [hshift, Nat.mul_add_div (Nat.two_pow_pos _), hdrop]
    _ = streamNat bs / 2 ^ p % 2 ^ (r.valid + 32) := by
        rw [hword, hacc, Nat.pow_add, Nat.mod_mul]
        ring

/-- A refill leaves what the registers stand for, and at most 32 bits used up (R160). -/
theorem reload_represents : r.reload.Represents bs p ∧ r.reload.bitOffset ≤ 32 := by
  unfold BitReader.reload
  split
  · rename_i ho
    have hword := ringWord_lt r.ring
    have hlt := r.acc.isLt
    have hfits : ringWord r.ring * 2 ^ 32 + r.acc.toNat / 2 ^ 32 < 2 ^ 64 := by omega
    have hacc := reload_acc h ho
    obtain ⟨hle, halign, -, hring⟩ := h
    have hvalid : 64 - (r.bitOffset - 32) = r.valid + 32 := by unfold BitReader.valid; omega
    refine ⟨⟨by dsimp only; omega, ?_, ?_, ?_⟩, by dsimp only; omega⟩
    · simp only [BitReader.valid, hvalid]
      unfold BitReader.valid at halign
      omega
    · simp only [BitReader.valid, BitVec.toNat_ofNat]
      rw [Nat.mod_eq_of_lt hfits, hacc, hvalid, streamValue_mod bs p (by unfold BitReader.valid; omega)]
    · simp only [BitReader.valid, hring, List.drop_drop, hvalid]
      congr 1
      unfold BitReader.valid at halign
      omega
  · exact ⟨h, by omega⟩

end

/-- Settles O60: a refill makes room for 24 bits, and a longer field is 16 bits, a refill and the rest. -/
theorem bitReaderRefinesTheStream : Obligations.BitReaderRefinesTheStream := by
  intro r bs p n h hn
  obtain ⟨hfull, hroom⟩ := reload_represents h
  rw [streamValue_mod bs p (by omega)]
  unfold BitReader.readField
  split
  · exact ⟨readFewBits_value hfull (by omega), readFewBits_represents hfull (by omega)⟩
  · have hlow := readFewBits_value hfull (n := 16) (by omega)
    obtain ⟨hrest, hroom'⟩ := reload_represents (readFewBits_represents hfull (n := 16) (by omega))
    have hhigh := readFewBits_value hrest (n := n - 16) (by omega)
    have hnext := readFewBits_represents hrest (n := n - 16) (by omega)
    rw [show p + 16 + (n - 16) = p + n by omega] at hnext
    refine ⟨?_, hnext⟩
    dsimp only
    rw [hlow, hhigh, Nat.pow_add, ← Nat.div_div_eq_div_mul]
    calc streamNat bs / 2 ^ p / 2 ^ 16 % 2 ^ (n - 16) * 2 ^ 16 + streamNat bs / 2 ^ p % 2 ^ 16
        = streamNat bs / 2 ^ p % (2 ^ 16 * 2 ^ (n - 16)) := by rw [Nat.mod_mul]; ring
      _ = streamNat bs / 2 ^ p % 2 ^ n := by rw [← Nat.pow_add, show 16 + (n - 16) = n by omega]

end Sys2Proof.Proofs

/-! The statements about memories and tables: positions whose tables are in place, raw and skipped bytes, literals and
distances (20_memory.md). -/

namespace Sys2Proof.Proofs

open Sys2Proof.Machine Sys2Proof.Laws

/-! ## Elements that decoding answers (R71, R201) -/

/-- Reading neither left a table nor met an undefined command (R71). -/
def Answers (r : Read) : Prop :=
  match r with
  | .bad .tableHole | .bad .badCommand => False
  | _ => True

/-- What element `c` needs in order to be read: usable tables, and numbers within their families (R201). -/
def Answerable (c : Ctx) : Prop :=
  match c with
  | .hostCommand _ _ _ => False
  | .mlen n => n = 4 ∨ n = 5 ∨ n = 6
  | .mskiplen n => n = 1 ∨ n = 2 ∨ n = 3
  | .cmap T rleMax => T.Total ∧ rleMax ≤ 16
  | .clsym T => T.Usable 18
  | .btype T | .dist T _ _ => T.Total
  | .blen T => T.Usable 26
  | .cmd T => T.Usable 704
  | .lit T => T.Usable 256
  | .insLen code | .copyLen code => code < 24
  | .transform n => n < 121
  | _ => True

theorem answers_ite {p : Prop} [Decidable p] {a b : Read} (ha : p → Answers a) (hb : ¬ p → Answers b) :
    Answers (if p then a else b) := by
  split
  · exact ha ‹_›
  · exact hb ‹_›

theorem answers_ofOption {o : Option Instr} {n : Nat} (h : o.isSome) : Answers (.ofOption o n) := by
  obtain ⟨i, rfl⟩ := Option.isSome_iff_exists.mp h
  trivial

/-- A row of a family by its number, with an operand or without. -/
theorem answers_row {α : Type} {rows : List α} {c n : Nat} {f : α → Instr} (h : c < rows.length) :
    Answers (.ofOption (rows[c]?.map f) n) :=
  answers_ofOption (by rw [Option.isSome_map, List.getElem?_eq_getElem h]; rfl)

section
variable {w : Window} {p : Nat}

theorem answers_starved : Answers (if w.eof then .bad (.error .unexpectedEOF) else .need) :=
  answers_ite (fun _ => trivial) fun _ => trivial

theorem answers_bits {n : Nat} {k : Nat → Read} (hk : ∀ x < 2 ^ n, Answers (k x)) : Answers (w.bits p n k) :=
  answers_ite (fun _ => hk _ (field_lt w p n)) fun _ => answers_starved

/-- A total table answers the peek with a symbol of its alphabet (R190, R201). -/
theorem answers_sym {T : HuffmanTable} {k : Nat → Nat → Read} (hT : T.Total)
    (hk : ∀ s n, s < T.lengths.length → Answers (k s n)) : Answers (w.sym p T k) := by
  refine answers_ite (fun _ => trivial) fun _ => ?_
  obtain ⟨s, n, hlookup, hs, -⟩ := hT (w.field p 15) (field_lt w p 15)
  rw [hlookup]
  exact answers_ite (fun _ => hk s _ hs) fun _ => answers_starved

end

theorem wbitsInstr_isSome {wb : Nat} (h : 10 ≤ wb) (h' : wb ≤ 24) : (wbitsInstr wb).isSome := by
  interval_cases wb <;> rfl

theorem answers_mapRun {c x n : Nat} (h : c ≠ 0) (h' : c ≤ 16) : Answers (.ofOption (cmapRunInstr c x) n) := by
  unfold cmapRunInstr
  rw [if_neg h]
  exact answers_row (show c - 1 < 16 by omega)

theorem answers_varlen8 {c x n : Nat} (h : c ≠ 0) (h' : c < 8) : Answers (.ofOption (varlen8Instr c x) n) := by
  unfold varlen8Instr
  rw [if_neg h]
  exact answers_row (show c - 1 < 7 by omega)

/-- Decoding answers an element that has what it needs (R71, R201). -/
theorem decode_answers {c : Ctx} (h : Answerable c) (w : Window) : Answers (decode c w) := by
  cases c <;> simp only [decode]
  case hostCommand => exact h.elim
  case nbltypes | ntrees | distImplicit => trivial
  case isLast | isLastEmpty | isUncompressed | raw | skip | npostfix | ndirecthi | rlemaxflag | rlemaxm1 | imtf |
      symbol | treeselect =>
    exact answers_bits fun _ _ => trivial
  case reserved | pad | finalPad => exact answers_bits fun _ _ => answers_ite (fun _ => trivial) fun _ => trivial
  case mnibbles | mskipbytes | cmode | hskip | nsymm1 =>
    refine answers_bits fun _ _ => ?_
    split <;> trivial
  case mlen | mskiplen => rcases h with rfl | rfl | rfl <;> exact answers_bits fun _ _ => trivial
  case streamHeader large =>
    refine answers_bits fun _ _ => answers_ite (fun _ => trivial) fun _ => ?_
    refine answers_bits fun n hn => answers_ite (fun hne => ?_) fun _ => ?_
    · exact answers_ofOption (wbitsInstr_isSome (by omega) (by omega))
    refine answers_bits fun m hm => answers_ite (fun _ => trivial) fun h0 => answers_ite (fun _ => ?_) fun h1 => ?_
    · refine answers_ite (fun _ => answers_bits fun _ _ => ?_) fun _ => trivial
      exact answers_ite (fun _ => trivial) fun _ => answers_bits fun _ _ => trivial
    · exact answers_ofOption (wbitsInstr_isSome (by omega) (by omega))
  case varlen8 =>
    refine answers_bits fun _ _ => answers_ite (fun _ => trivial) fun _ => ?_
    refine answers_bits fun n hn => answers_ite (fun _ => trivial) fun h0 => ?_
    exact answers_bits fun _ _ => answers_varlen8 h0 hn
  case cmap T rleMax =>
    obtain ⟨hT, hr⟩ := h
    refine answers_sym hT fun s _ _ => answers_ite (fun _ => trivial) fun h0 => ?_
    exact answers_ite (fun hs => answers_bits fun _ _ => answers_mapRun h0 (hs.trans hr)) fun _ => trivial
  case cllen =>
    exact answers_ite (fun _ => trivial) fun _ => answers_ite (fun _ => trivial) fun _ => trivial
  case clsym T =>
    obtain ⟨hT, hlen⟩ := h
    refine answers_sym hT fun s _ hs => ?_
    refine answers_ite (fun _ => answers_bits fun _ _ => trivial) fun h16 => ?_
    refine answers_ite (fun _ => answers_bits fun _ _ => trivial) fun h17 => answers_ofOption ?_
    exact Option.isSome_iff_exists.mpr ⟨_, List.getElem?_eq_getElem (show s < 16 by omega)⟩
  case btype T =>
    refine answers_sym h fun _ _ _ => ?_
    split <;> trivial
  case blen T =>
    obtain ⟨hT, hlen⟩ := h
    exact answers_sym hT fun _ _ hs => answers_bits fun _ _ => answers_row (hs.trans_eq hlen)
  case cmd T =>
    obtain ⟨hT, hlen⟩ := h
    exact answers_sym hT fun s _ hs => answers_row (show s / 64 < 11 by omega)
  case lit T =>
    obtain ⟨hT, hlen⟩ := h
    exact answers_sym hT fun _ _ hs => answers_ite (fun _ => trivial) fun hn => absurd (hlen ▸ hs) hn
  case insLen | copyLen => exact answers_bits fun _ _ => answers_row h
  case dist T npostfix ndirect =>
    refine answers_sym h fun s _ _ => answers_ite (fun hs => answers_ofOption ?_) fun _ => ?_
    · exact Option.isSome_iff_exists.mpr ⟨_, List.getElem?_eq_getElem hs⟩
    · exact answers_ite (fun _ => trivial) fun _ => answers_bits fun _ _ => trivial
  case transform n => exact answers_ofOption (Option.isSome_iff_exists.mpr ⟨_, List.getElem?_eq_getElem h⟩)

/-! ## Ready control positions (R71, R85, R201, R409) -/

/-- What is next inside a call goes on: an element step without a row, or an element that decoding answers. -/
def Fires (f : Fetched) : Prop :=
  match f with
  | .internal _ => True
  | .element c => Answerable c
  | .idle | .stuck _ => False

theorem fires_ite {p : Prop} [Decidable p] {a b : Fetched} (ha : p → Fires a) (hb : ¬ p → Fires b) :
    Fires (if p then a else b) := by
  split
  · exact ha ‹_›
  · exact hb ‹_›

/-- A step of a call goes on where what is next does: each case is a clause of O9. -/
theorem step_of_fires {s : State} (hc : s.inCall = true) (h : Fires s.st.fetch) : ∃ t, step s = .next t := by
  obtain ⟨hrow, hinternal, hpull, herror⟩ := stepRunsTheDecodedInstruction
  rw [← fetch_of_inCall hc] at h
  cases hf : s.fetch <;> rw [hf] at h
  case idle | stuck => exact h.elim
  case internal op => exact ⟨_, hinternal s op hf⟩
  case element c =>
    have hanswer := decode_answers h (s.window c)
    cases hahead : s.wantsLookahead c
    case true => exact ⟨_, hpull s c hf (.inl hahead)⟩
    case false =>
      cases hdec : decode c (s.window c) <;> rw [hdec] at hanswer
      case need => exact ⟨_, hpull s c hf (.inr hdec)⟩
      case ok i n =>
        obtain ⟨u, hexec, -⟩ := effect_of_decode hdec (s.take c n)
        exact ⟨_, hrow s c i n u hf hahead hdec hexec⟩
      case bad r =>
        cases r
        case error k => exact ⟨_, herror s c k hf hahead hdec⟩
        case tableHole | badCommand => exact hanswer.elim

/-- A code made of a cell's high part and three low bits is one of the 24 (R280). -/
theorem cellCode_lt {cells : List Nat} (hcells : ∀ i < 11, tableAt cells i ≤ 2) {sym low : Nat} (h : sym < 704)
    (hlow : low < 8) : tableAt cells (sym >>> 6) * 8 + low < 24 := by
  have := hcells (sym >>> 6) (by rw [Nat.shiftRight_eq_div_pow]; omega)
  omega

theorem insertCode_lt {c : Nat} (h : c < 704) : insertCode c < 24 :=
  cellCode_lt (by decide) h (Nat.mod_lt _ (by decide))

theorem copyCode_lt {c : Nat} (h : c < 704) : copyCode c < 24 :=
  cellCode_lt (by decide) h (Nat.mod_lt _ (by decide))

theorem fires_withTree {group : List HuffmanTable} {i : Nat} {c : HuffmanTable → Ctx} (hi : i < group.length)
    (h : ∀ T, group[i]? = some T → Answerable (c T)) : Fires (withTree group i c) := by
  have hT := List.getElem?_eq_getElem hi
  unfold withTree
  rw [hT]
  exact h _ hT

section
variable {st : DecoderState}

theorem fires_fetchSymbol {k : Cat} {next : Fetched} (hk : st.SwitchReady k) (hnext : Fires next) :
    Fires (st.fetchSymbol k next) :=
  fires_ite (fun ⟨_, htwo⟩ => (hk htwo).1) fun _ => hnext

theorem fires_fetchPartition {k : Cat} (h : (st.hsub = 0 ∧ (st.field = .start ∨ ∃ v, st.field = .varlenResult v)) ∨
    (st.hsub = 3 ∧ st.field = .start ∧ (st.blockLenTree.get k).Usable 26)) : Fires (st.fetchPartition k) := by
  unfold DecoderState.fetchPartition
  rcases h with ⟨hsub, hf | ⟨v, hf⟩⟩ | ⟨hsub, hf, hT⟩ <;> rw [hsub, hf]
  · trivial
  · trivial
  · exact hT

theorem fires_fetchMap (h : (st.hsub = 0 ∧ (st.field = .start ∨ ∃ v, st.field = .varlenResult v)) ∨
    (st.hsub = 1 ∧ (st.field = .start ∨ st.field = .rlemaxm1)) ∨
    (st.hsub = 3 ∧ st.field = .start ∧ st.cmTree.Total ∧ st.cmRleMax ≤ 16) ∨
    (st.hsub = 4 ∧ st.field = .start)) : Fires st.fetchMap := by
  unfold DecoderState.fetchMap
  rcases h with ⟨hsub, hf | ⟨v, hf⟩⟩ | ⟨hsub, hf | hf⟩ | ⟨hsub, hf, hT⟩ | ⟨hsub, hf⟩ <;> rw [hsub, hf]
  · trivial
  · trivial
  · trivial
  · trivial
  · exact hT
  · trivial

theorem clTree_usable (h : st.clTree.Total) : st.clTree.Usable 18 :=
  ⟨h, by simp [DecoderState.clTree, HuffmanTable.build]⟩

theorem staticReference_lt {n : Nat} (h : st.staticReference = some n) : n < 121 := by
  unfold DecoderState.staticReference at h
  split at h
  · cases h
  · dsimp only at h
    split at h
    · cases h; assumption
    · cases h

theorem fires_fetchDictionary : Fires st.fetchDictionary := by
  unfold DecoderState.fetchDictionary
  split
  · exact staticReference_lt ‹_›
  · trivial

theorem fires_fetchByte {c : Ctx} (hc : Answerable c) (h : st.metaBlockLength ≠ 0 → st.bitpos % 8 = 0) :
    Fires (st.fetchByte c) :=
  fires_ite (fun _ => trivial) fun hleft => fires_ite (fun hoff => absurd (h hleft) hoff) fun _ => hc

/-- Inside a code the reader's element is next, else the element of the header's phase (R193, R235). -/
theorem fires_fetchHuffmanData (hr : st.runningState = .metablockHuffmanData) (h : st.Ready) :
    Fires st.fetchHuffmanData := by
  simp only [DecoderState.Ready, hr] at h
  unfold DecoderState.fetchHuffmanData
  split
  · rw [if_pos ‹_›] at h
    unfold DecoderState.fetchPrefixCode
    cases hp : st.pcPhase with
    | start => cases hf : st.field <;> simp only [hp, hf] at h <;> trivial
    | clLengths => trivial
    | symLengths => exact clTree_usable (by simpa only [hp] using h)
  · rw [if_neg ‹_›] at h
    cases hp : st.hphase <;> simp only [hp] at h
    case partL | partI | partD => exact fires_fetchPartition (by simpa [DecoderState.cat, hr, hp] using h)
    case distParams => rcases h with hf | hf <;> rw [hf] <;> trivial
    case ctxModes | finalize => trivial
    case cmapL | cmapD => exact fires_fetchMap h

theorem fires_fetchMainLoop (hr : st.runningState = .mainLoop) (h : st.Ready) : Fires st.fetchMainLoop := by
  unfold DecoderState.fetchMainLoop
  cases hf : st.field <;> simp only [DecoderState.Ready, hr, hf] at h
  case start =>
    refine fires_ite (fun _ => trivial) fun _ => fires_fetchSymbol (h.switches .I) ?_
    exact fires_withTree h.commandTree h.commands
  case blockCount => exact h
  case insLen => exact insertCode_lt h
  case copyLen => exact copyCode_lt h

theorem fires_fetchInsertLoop (hr : st.runningState = .insertLoop) (h : st.Ready) : Fires st.fetchInsertLoop := by
  unfold DecoderState.fetchInsertLoop
  cases hf : st.field <;> simp only [DecoderState.Ready, hr, hf] at h
  case start =>
    refine fires_ite (fun _ => ?literal) fun _ =>
      fires_ite (fun _ => trivial) fun _ => fires_ite (fun _ => trivial) fun _ => ?distance
    case literal =>
      refine fires_fetchSymbol (h.switches .L) (fires_withTree h.literalTree fun T hT => ?_)
      exact h.literals T (List.mem_of_getElem? hT)
    case distance =>
      refine fires_fetchSymbol (h.switches .D) (fires_withTree h.distanceTree fun T hT => ?_)
      exact h.distances T (List.mem_of_getElem? hT)
  case blockCount => exact h

/-- Whatever is next at a ready position goes on (R409). -/
theorem fires_of_ready (h : st.Ready) : Fires st.fetch := by
  have hready := h
  unfold DecoderState.fetch
  cases hr : st.runningState <;> simp only [DecoderState.Ready, hr] at h
  case initialized | blockStart | writeOutput => trivial
  case metablockHeader =>
    unfold DecoderState.fetchHeader
    cases hf : st.field <;> simp only [hf] at h <;> trivial
  case metadata | uncompressed => exact fires_fetchByte trivial h
  case metablockHuffmanData => exact fires_fetchHuffmanData hr hready
  case mainLoop => exact fires_fetchMainLoop hr hready
  case insertLoop => exact fires_fetchInsertLoop hr hready
  case copyLoop => exact fires_ite (fun ⟨hj, hd⟩ => by have := h hj; omega) fun _ => trivial
  case useDictionary => exact fires_fetchDictionary
  case compoundDictionaryCopy => exact fires_ite (fun ⟨hl, ha⟩ => absurd (h hl) (by omega)) fun _ => trivial
  case finished =>
    unfold DecoderState.fetchFinished
    rcases h with hf | hf <;> rw [hf] <;> trivial

end

/-- Settles O59: at a ready position the next element step fires, and decoding answers its element. -/
theorem readyPositionsDoNotStop : Obligations.ReadyPositionsDoNotStop := fun _ hc hready =>
  step_of_fires hc (fires_of_ready hready)

/-! ## Raw and skipped bytes (R230, R231, R383, R385) -/

theorem fetchByte_aligned {st : DecoderState} (c : Ctx) (hleft : st.metaBlockLength ≠ 0) (halign : st.bitpos % 8 = 0) :
    st.fetchByte c = .element c := by
  unfold DecoderState.fetchByte
  rw [if_neg hleft, if_neg (not_not.mpr halign)]

theorem fetchByte_end {st : DecoderState} (c : Ctx) (h : st.metaBlockLength = 0) :
    st.fetchByte c = .internal .endOfBlock :=
  if_pos h

theorem fetch_uncompressed {s : State} (hc : s.inCall = true) (hr : s.st.runningState = .uncompressed) :
    s.fetch = s.st.fetchByte .raw := by
  rw [fetch_of_inCall hc, DecoderState.fetch, hr]

theorem fetch_metadata {s : State} (hc : s.inCall = true) (hr : s.st.runningState = .metadata) :
    s.fetch = s.st.fetchByte .skip := by
  rw [fetch_of_inCall hc, DecoderState.fetch, hr]

/-- Settles O20: a byte's effect is the fence test of the emitted byte, or the count alone. -/
theorem rawAndSkippedBytes : Obligations.RawAndSkippedBytes := by
  refine ⟨fun s r c hc hr hrc => ?fetch, fun b s => ⟨?raw, rfl⟩⟩
  case fetch =>
    have hfetch : s.fetch = s.st.fetchByte c := by
      rcases hrc with ⟨rfl, rfl⟩ | ⟨rfl, rfl⟩
      · exact fetch_uncompressed hc hr
      · exact fetch_metadata hc hr
    rw [hfetch]
    exact ⟨fetchByte_aligned c, fetchByte_end c⟩
  case raw =>
    show Host.Outcome.next (s.rawByte b) = _
    rw [State.rawByte, fenceTest_eq]
    rfl

/-! ## InsertLoop: literals and distances (R290 to R306) -/

theorem withTree_some {group : List HuffmanTable} {i : Nat} {T : HuffmanTable} (c : HuffmanTable → Ctx)
    (h : group[i]? = some T) : withTree group i c = .element (c T) := by
  rw [withTree, h]

theorem fetchSymbol_switch {st : DecoderState} {k : Cat} (next : Fetched) (hused : st.blockLength.get k = 0)
    (htwo : 2 ≤ st.numBlockTypes.get k) : st.fetchSymbol k next = .element (.btype (st.blockTypeTree.get k)) :=
  if_pos ⟨hused, htwo⟩

theorem fetchSymbol_next {st : DecoderState} {k : Cat} (next : Fetched)
    (h : st.blockLength.get k ≠ 0 ∨ st.numBlockTypes.get k < 2) : st.fetchSymbol k next = next :=
  if_neg (by omega)

theorem fetch_literal {s : State} (hc : s.inCall = true) (hr : s.st.runningState = .insertLoop)
    (hf : s.st.field = .start) (hj : s.st.j < s.st.insertLength) :
    s.fetch = s.st.fetchSymbol .L (withTree s.st.literalTrees s.st.literalTreeIndex .lit) := by
  simp only [fetch_of_inCall hc, DecoderState.fetch, DecoderState.fetchInsertLoop, hr, hf, if_pos hj]

theorem fetch_afterLiterals {s : State} (hc : s.inCall = true) (hr : s.st.runningState = .insertLoop)
    (hf : s.st.field = .start) (hj : s.st.insertLength ≤ s.st.j) :
    s.fetch =
      if s.st.metaBlockLength = 0 then .internal .literalsDone
      else if s.st.distImplicit then .element .distImplicit
      else s.st.fetchSymbol .D
        (withTree s.st.distanceTrees s.st.distTreeIndex fun T => .dist T s.st.npostfix s.st.ndirect) := by
  simp only [fetch_of_inCall hc, DecoderState.fetch, DecoderState.fetchInsertLoop, hr, hf, if_neg (not_lt.mpr hj)]

/-- Settles O34: the switch comes first, then the literal's tree, whose index is R292's; a literal's effect is the
fence test of the emitted byte. -/
theorem literalRow : Obligations.LiteralRow := by
  refine ⟨fun s hc hr hf hj => ?fetch, fun b s => ?effect⟩
  case fetch =>
    rw [fetch_literal hc hr hf hj]
    refine ⟨fetchSymbol_switch (k := .L) _, ?_⟩
    rintro T p1 p2 mode hcount rfl rfl rfl hT
    rw [fetchSymbol_next (k := .L) _ hcount]
    refine withTree_some _ ?_
    rw [DecoderState.literalTreeIndex, Nat.mul_comm]
    exact hT
  case effect =>
    show Host.Outcome.next (s.literal b) = _
    rw [State.literal, fenceTest_eq]
    rfl

theorem exec_explicit {s : State} {i : Instr} {sym : Nat} {d : Int}
    (h : distShortInstr sym = some i ∧
        d = (s.st.distRing[s.st.distRbIdx + Fin.ofNat 4 (tableAt distShortIdx sym)] : Nat) +
          distShortVal.getD sym 0 ∨
      i = .distDirect sym ∧ d = (sym : Int) - 15 ∨
      ∃ x, i = .distLong sym x ∧ d = (longDistance s.st.npostfix s.st.ndirect sym x : Nat)) :
    exec i s = .next (s.explicitDistance sym d) := by
  rcases h with ⟨hi, rfl⟩ | ⟨rfl, rfl⟩ | ⟨x, rfl, rfl⟩
  · exact exec_of_distShort hi s
  · rfl
  · rfl

/-- The ring's slot 0 is the last distance (R301). -/
theorem ringSlot_zero (st : DecoderState) : st.ringSlot 0 = st.distRing[st.distRbIdx] := by
  simp [DecoderState.ringSlot]

/-- Settles O35: each row's distance is an explicit one (R303, R305, R306), or the last one of the ring. -/
theorem distanceRows : Obligations.DistanceRows := by
  refine ⟨fun s hc hr hf hj => ?fetch, fun s => ?implicit, fun s i sym d h => ?explicit⟩
  case fetch =>
    rw [fetch_afterLiterals hc hr hf hj]
    refine ⟨fun hend => if_pos hend, fun hleft himp => ?_, fun hleft himp hused htwo => ?_,
      fun T hleft himp hcount hT => ?_⟩
    · rw [if_neg hleft, if_pos himp]
    · rw [if_neg hleft, if_neg (Bool.eq_false_iff.mp himp)]
      exact fetchSymbol_switch _ hused htwo
    · rw [if_neg hleft, if_neg (Bool.eq_false_iff.mp himp), fetchSymbol_next (k := .D) _ hcount]
      refine withTree_some _ ?_
      rw [DecoderState.distTreeIndex, Nat.mul_comm]
      exact hT
  case implicit =>
    show Host.Outcome.next s.lastDistance = _
    rw [State.lastDistance, ringSlot_zero]
  case explicit =>
    rw [exec_explicit h, State.explicitDistance]
    exact ⟨fun hd => by rw [if_pos hd], fun hd => by rw [if_neg (not_le.mpr hd)]⟩

end Sys2Proof.Proofs

/-! The statements about words and the rows they are read as (30_encoding.md). -/

namespace Sys2Proof.Proofs

open Sys2Proof.Machine Sys2Proof.Laws

/-! ## Reading a word back (R110 to R128) -/

/-- The window `w` begins with the word `v` of `n` bits, with the 15 bits of a peek behind it or the end of the stream. -/
structure HoldsWord (w : Window) (v n : Nat) : Prop where
  value : w.value ≡ v [MOD 2 ^ n]
  fits : n ≤ w.avail
  peek : w.eof = true ∨ n + 15 ≤ w.avail

theorem holdsWord_append {v n rest avail : Nat} {eof : Bool} (hfits : n ≤ avail) (hpeek : eof = true ∨ n + 15 ≤ avail) :
    HoldsWord ⟨v + 2 ^ n * rest, avail, eof⟩ v n :=
  ⟨Nat.add_mul_mod_self_left _ _ _, hfits, hpeek⟩

theorem bits_available {w : Window} {p n : Nat} (h : p + n ≤ w.avail) (k : Nat → Read) :
    w.bits p n k = k (w.field p n) :=
  if_pos h

theorem whenRow_eq_some {row : Option Instr} {i : Instr} {r : Option (Nat × Nat)} {p : Nat × Nat}
    (h : whenRow row i r = some p) : row = some i ∧ r = some p := by
  unfold whenRow at h
  split at h
  · exact ⟨‹_›, h⟩
  · cases h

theorem fieldWord_eq_some {x m v n : Nat} (h : fieldWord x m = some (v, n)) : x < 2 ^ m ∧ v = x ∧ n = m := by
  unfold fieldWord at h
  split at h
  · cases h; exact ⟨‹_›, rfl, rfl⟩
  · cases h

theorem symbolWord_eq_some {T : HuffmanTable} {s x m v n : Nat} (h : symbolWord T s x m = some (v, n)) :
    ∃ u len, T.word s = some (u, len) ∧ x < 2 ^ m ∧ v = u + x * 2 ^ len ∧ n = len + m := by
  unfold symbolWord at h
  split at h
  · cases h
  · split at h
    · cases h; exact ⟨_, _, ‹_›, ‹_›, rfl, rfl⟩
    · cases h

theorem codeWord2_eq_some {r0 r1 r2 r3 i : Instr} {v n : Nat} (h : codeWord2 [r0, r1, r2, r3] i = some (v, n)) :
    n = 2 ∧ (v = 0 ∧ i = r0 ∨ v = 1 ∧ i = r1 ∨ v = 2 ∧ i = r2 ∨ v = 3 ∧ i = r3) := by
  unfold codeWord2 at h
  dsimp only at h
  split_ifs at h <;> cases h <;> simp [*]

/-- A command's word is its code (R400). -/
theorem hostWord_eq_some {src : List SourceAnswer} {chunk : List Byte} {cap v n : Nat} {i : Instr}
    (h : hostWord src chunk cap i = some (v, n)) : n = 3 ∧ v < 8 ∧ hostInstr v src chunk cap = some i := by
  unfold hostWord at h
  split at h
  case h_2 | h_5 | h_6 =>
    split at h <;> cases h
    subst_vars
    exact ⟨rfl, by decide, rfl⟩
  case h_8 => cases h
  all_goals cases h; exact ⟨rfl, by decide, rfl⟩

theorem clsymInstr_lt {s : Nat} {i : Instr} (h : clsymInstr s = some i) : s < 16 := (List.getElem?_eq_some_iff.mp h).1

theorem distShortInstr_lt {s : Nat} {i : Instr} (h : distShortInstr s = some i) : s < 16 :=
  (List.getElem?_eq_some_iff.mp h).1

theorem cmapRunInstr_ne_zero {s x : Nat} {i : Instr} (h : cmapRunInstr s x = some i) : s ≠ 0 := by
  rintro rfl
  cases h

theorem varlen8Instr_ne_zero {n x : Nat} {i : Instr} (h : varlen8Instr n x = some i) : n ≠ 0 := by
  rintro rfl
  cases h

/-- The bits of a code-length-code length decide its row, whatever is peeked at after them (R119, R197). -/
theorem cllenRow_of_word {i : Instr} {v n p : Nat} (h : cllenWord i = some (v, n)) (hp : p ≡ v [MOD 2 ^ n]) :
    cllenRow p = (n, i) := by
  unfold cllenWord at h
  unfold Nat.ModEq at hp
  split at h <;> cases h
  case h_1 | h_4 | h_5 => simp [cllenRow, show p % 4 = _ from hp]
  case h_2 => simp [cllenRow, show p % 4 = 3 by omega, show p % 8 ≠ 3 by omega, show p % 16 = 7 from hp]
  case h_3 => simp [cllenRow, show p % 4 = 3 by omega, show p % 8 = 3 from hp]
  case h_6 => simp [cllenRow, show p % 4 = 3 by omega, show p % 8 ≠ 3 by omega, show p % 16 = 15 from hp]

section
variable {w : Window} {v n : Nat} {i : Instr} (hw : HoldsWord w v n)
include hw

theorem value_modEq {k : Nat} (hk : k ≤ n) : w.value ≡ v [MOD 2 ^ k] := hw.value.of_dvd (pow_dvd_pow 2 hk)

/-- A peek that reaches beyond the word begins with the word's bits (R190, R196). -/
theorem peek_modEq {k m : Nat} (hk : k ≤ n) (hm : k ≤ m) : w.field 0 m ≡ v [MOD 2 ^ k] := by
  have hfield : w.field 0 m ≡ w.value [MOD 2 ^ m] := by simp [Window.field, Nat.mod_modEq]
  exact (hfield.of_dvd (pow_dvd_pow 2 hm)).trans (value_modEq hw hk)

/-- Neither a word nor the 15 bits of a symbol's peek are waited for (R192, R196). -/
theorem not_waiting {k : Nat} (hk : k ≤ n + 15) : ¬ (w.avail < k ∧ w.eof = false) := by
  rintro ⟨hshort, hmore⟩
  rcases hw.peek with hend | hlong
  · rw [hend] at hmore; cases hmore
  · omega

/-- A field within the word has the word's bits (R153). -/
theorem bits_holds {p k : Nat} (h : p + k ≤ n) (f : Nat → Read) : w.bits p k f = f (v / 2 ^ p % 2 ^ k) := by
  have hfield : w.field p k = v / 2 ^ p % 2 ^ k := by
    rw [Window.field, ← Nat.mod_mul_right_div_self, ← pow_add, value_modEq hw h, pow_add,
      Nat.mod_mul_right_div_self]
  rw [bits_available (h.trans hw.fits), hfield]

/-- A row whose word is one field (R114 to R118). -/
theorem option_of_fieldWord {row : Nat → Option Instr} {m : Nat}
    (h : whenRow (row i.operand) i (fieldWord i.operand m) = some (v, n)) :
    w.bits 0 m (fun x => .ofOption (row x) m) = .ok i n := by
  obtain ⟨hrow, hword⟩ := whenRow_eq_some h
  obtain ⟨hlt, rfl, rfl⟩ := fieldWord_eq_some hword
  rw [bits_holds hw (by omega), pow_zero, Nat.div_one, Nat.mod_eq_of_lt hlt, hrow]
  rfl

theorem ok_of_fieldWord {row : Nat → Instr} {m : Nat}
    (h : whenRow (some (row i.operand)) i (fieldWord i.operand m) = some (v, n)) :
    w.bits 0 m (fun x => .ok (row x) m) = .ok i n :=
  option_of_fieldWord hw (row := fun x => some (row x)) h

/-- A row that is one two-bit code (R114, R117, R118, R122). -/
theorem ok_of_codeWord2 {r0 r1 r2 r3 : Instr} {k : Nat → Read} (h : codeWord2 [r0, r1, r2, r3] i = some (v, n))
    (hk : k 0 = .ok r0 2 ∧ k 1 = .ok r1 2 ∧ k 2 = .ok r2 2 ∧ k 3 = .ok r3 2) : w.bits 0 2 k = .ok i n := by
  obtain ⟨rfl, hv⟩ := codeWord2_eq_some h
  obtain ⟨h0, h1, h2, h3⟩ := hk
  rw [bits_holds hw (by omega)]
  rcases hv with ⟨rfl, rfl⟩ | ⟨rfl, rfl⟩ | ⟨rfl, rfl⟩ | ⟨rfl, rfl⟩
  · exact h0
  · exact h1
  · exact h2
  · exact h3

/-- A row whose bits are all zero (R157, R226). -/
theorem ok_of_zeroWord {r : Instr} {m : Nat} {e : Reject} (h : whenRow (some r) i (some (0, m)) = some (v, n)) :
    w.bits 0 m (fun x => if x = 0 then .ok r m else .bad e) = .ok i n := by
  obtain ⟨hrow, hword⟩ := whenRow_eq_some h
  cases hrow
  cases hword
  rw [bits_holds hw (by omega), Nat.zero_div, Nat.zero_mod, if_pos rfl]

/-- The symbol of a word is read back, and then the field that follows it (R190, R191). -/
theorem reads_symbolWord {T : HuffmanTable} {s x m : Nat} (hT : T.Reads) (h : symbolWord T s x m = some (v, n)) :
    ∃ len, n = len + m ∧ (∀ k, w.sym 0 T k = k s len) ∧ ∀ k, w.bits len m k = k x := by
  obtain ⟨u, len, hword, hx, rfl, rfl⟩ := symbolWord_eq_some h
  obtain ⟨hlen, hu, hlookup⟩ := hT s u len hword
  refine ⟨len, rfl, fun k => ?_, fun k => ?_⟩
  · have hpeek : w.field 0 15 % 2 ^ len = u := by
      rw [peek_modEq hw (Nat.le_add_right len m) hlen, Nat.add_mul_mod_self_right, Nat.mod_eq_of_lt hu]
    have hfits := hw.fits
    rw [Window.sym, if_neg (not_waiting hw (by omega)), hlookup _ (field_lt w 0 15) hpeek]
    dsimp only
    rw [if_pos (by omega), Nat.zero_add]
  · rw [bits_holds hw le_rfl, Nat.add_mul_div_right _ _ (Nat.two_pow_pos len), Nat.div_eq_of_lt hu, Nat.zero_add,
      Nat.mod_eq_of_lt hx]

/-- The stream header: the large-window form has its `LWBITS` above the pattern and a RESERVED bit of 0, every other row is
one fixed word (R112, R113). -/
theorem decode_streamHeader {large : Bool} (h : streamHeaderWord large i = some (v, n)) :
    decode (.streamHeader large) w = .ok i n := by
  unfold streamHeaderWord at h
  split at h
  case h_16 lwbits =>
    split at h <;> cases h
    obtain ⟨rfl, hlt⟩ := ‹large = true ∧ lwbits < 64›
    have hfirst : (17 + lwbits * 256) / 2 ^ 0 % 2 ^ 1 = 1 := by omega
    have hn : (17 + lwbits * 256) / 2 ^ 1 % 2 ^ 3 = 0 := by omega
    have hm : (17 + lwbits * 256) / 2 ^ 4 % 2 ^ 3 = 1 := by omega
    have hreserved : (17 + lwbits * 256) / 2 ^ 7 % 2 ^ 1 = 0 := by omega
    have hlwbits : (17 + lwbits * 256) / 2 ^ 8 % 2 ^ 6 = lwbits := by omega
    simp only [decode]
    rw [bits_holds hw (by omega), hfirst, if_neg one_ne_zero, bits_holds hw (by omega), hn, if_neg (by decide),
      bits_holds hw (by omega), hm, if_neg one_ne_zero, if_pos rfl, if_pos trivial, bits_holds hw (by omega), hreserved,
      if_neg zero_ne_one, bits_holds hw (by omega), hlwbits]
  case h_17 =>
    split at h <;> cases h
    simp [decode, bits_holds hw, *]
  case h_18 => cases h
  all_goals
    cases h
    simp [decode, bits_holds hw, wbitsInstr, Read.ofOption]

/-- `varlen8`: a bit, the number of extra bits, and those (R116). -/
theorem decode_varlen8 (h : varlen8Word i = some (v, n)) : decode .varlen8 w = .ok i n := by
  unfold varlen8Word at h
  split at h
  · cases h; simp [decode, bits_holds hw]
  · cases h; simp [decode, bits_holds hw]
  · obtain ⟨hrow, hword⟩ := whenRow_eq_some h
    have hne := varlen8Instr_ne_zero hrow
    split at hword <;> cases hword
    obtain ⟨hx, hlt⟩ := ‹i.operand < 2 ^ i.number ∧ i.number < 8›
    generalize i.number = m at *
    generalize i.operand = x at *
    have hfirst : (1 + m * 2 + x * 16) / 2 ^ 0 % 2 ^ 1 = 1 := by omega
    have hcount : (1 + m * 2 + x * 16) / 2 ^ 1 % 2 ^ 3 = m := by omega
    have hextra : (1 + m * 2 + x * 16) / 2 ^ 4 % 2 ^ m = x := by
      rw [show (1 + m * 2 + x * 16) / 2 ^ 4 = x by omega, Nat.mod_eq_of_lt hx]
    simp only [decode]
    rw [bits_holds hw (by omega), hfirst, if_neg one_ne_zero, bits_holds hw (by omega), hcount, if_neg hne,
      bits_holds hw le_rfl, hextra, hrow]
    rfl

/-- Code-length-code lengths: the peek of 4 bits begins with the word (R119, R196). -/
theorem decode_cllen (h : cllenWord i = some (v, n)) : decode .cllen w = .ok i n := by
  have hn : n ≤ 4 := by
    unfold cllenWord at h
    split at h <;> cases h <;> decide
  have hrow := cllenRow_of_word h (peek_modEq hw le_rfl hn)
  simp only [decode]
  rw [if_neg (not_waiting hw (by omega)), hrow, if_pos hw.fits]

section
variable {T : HuffmanTable} (hT : T.Reads)
include hT

/-- A row that is one symbol (R120, R121, R124, R125). -/
theorem sym_of_symbolWord {s : Nat} {k : Nat → Nat → Read} (h : symbolWord T s 0 0 = some (v, n))
    (hk : k s n = .ok i n) : w.sym 0 T k = .ok i n := by
  obtain ⟨len, rfl, hsym, -⟩ := reads_symbolWord hw hT h
  rw [hsym]
  exact hk

/-- Context-map symbols (R123). -/
theorem decode_cmap {rleMax : Nat} (h : cmapWord T rleMax i = some (v, n)) : decode (.cmap T rleMax) w = .ok i n := by
  simp only [decode]
  unfold cmapWord at h
  split at h
  · exact sym_of_symbolWord hw hT h (if_pos rfl)
  · split at h
    · obtain ⟨habove, hne⟩ := ‹_ ∧ _›
      exact sym_of_symbolWord hw hT h (by rw [if_neg hne, if_neg (by omega)])
    · cases h
  · split at h
    · obtain ⟨hrow, hword⟩ := whenRow_eq_some h
      obtain ⟨len, rfl, hsym, hbits⟩ := reads_symbolWord hw hT hword
      rw [hsym, if_neg (cmapRunInstr_ne_zero hrow), if_pos ‹_›, hbits, hrow]
      rfl
    · cases h

/-- Code-length symbols (R120). -/
theorem decode_clsym (h : clsymWord T i = some (v, n)) : decode (.clsym T) w = .ok i n := by
  simp only [decode]
  unfold clsymWord at h
  split at h
  · obtain ⟨len, rfl, hsym, hbits⟩ := reads_symbolWord hw hT h
    rw [hsym, if_pos rfl, hbits]
  · obtain ⟨len, rfl, hsym, hbits⟩ := reads_symbolWord hw hT h
    rw [hsym, if_neg (by decide), if_pos rfl, hbits]
  · obtain ⟨hrow, hword⟩ := whenRow_eq_some h
    have hs := clsymInstr_lt hrow
    refine sym_of_symbolWord hw hT hword ?_
    rw [if_neg (by omega), if_neg (by omega), hrow]
    rfl

/-- Block-type symbols (R121). -/
theorem decode_btype (h : btypeWord T i = some (v, n)) : decode (.btype T) w = .ok i n := by
  simp only [decode]
  unfold btypeWord at h
  split at h
  · exact sym_of_symbolWord hw hT h rfl
  · exact sym_of_symbolWord hw hT h rfl
  · split at h
    · obtain ⟨t, rfl⟩ := Nat.exists_eq_add_of_le' ‹2 ≤ _›
      exact sym_of_symbolWord hw hT h rfl
    · cases h
  · cases h

/-- Distance symbols (R125). -/
theorem decode_dist {npostfix ndirect : Nat} (h : distWord T npostfix ndirect i = some (v, n)) :
    decode (.dist T npostfix ndirect) w = .ok i n := by
  simp only [decode]
  unfold distWord at h
  split at h
  · split at h
    · obtain ⟨hlow, hhigh⟩ := ‹_ ∧ _›
      exact sym_of_symbolWord hw hT h (by rw [if_neg (by omega), if_pos hhigh])
    · cases h
  · split at h
    · obtain ⟨len, rfl, hsym, hbits⟩ := reads_symbolWord hw hT h
      rw [hsym, if_neg (by omega), if_neg (by omega), hbits]
    · cases h
  · obtain ⟨hrow, hword⟩ := whenRow_eq_some h
    exact sym_of_symbolWord hw hT hword (by rw [if_pos (distShortInstr_lt hrow), hrow]; rfl)

end

/-- Every element reads back the word of each of its rows (R110). -/
theorem decode_encode {c : Ctx} (hc : c.TableReads) (h : encode c i = some (v, n)) : decode c w = .ok i n := by
  cases c <;> simp only [encode] at h <;> simp only [decode]
  case hostCommand src chunk cap =>
    obtain ⟨rfl, hv, hrow⟩ := hostWord_eq_some h
    rw [bits_holds hw (by omega), show v / 2 ^ 0 % 2 ^ 3 = v by omega, hrow]
  case streamHeader => exact decode_streamHeader hw h
  case isLast | isLastEmpty | isUncompressed | raw | skip | npostfix | ndirecthi | rlemaxflag | rlemaxm1 | imtf |
      symbol | treeselect =>
    exact ok_of_fieldWord hw h
  case insLen | copyLen => exact option_of_fieldWord hw h
  case mlen | mskiplen =>
    split at h
    · exact ok_of_fieldWord hw h
    · exact ok_of_fieldWord hw h
    · exact ok_of_fieldWord hw h
    · cases h
  case mnibbles | mskipbytes | cmode | hskip | nsymm1 => exact ok_of_codeWord2 hw h ⟨rfl, rfl, rfl, rfl⟩
  case reserved | pad | finalPad => exact ok_of_zeroWord hw h
  case nbltypes | ntrees | distImplicit =>
    obtain ⟨hrow, hword⟩ := whenRow_eq_some h
    cases hrow; cases hword; rfl
  case transform =>
    obtain ⟨hrow, hword⟩ := whenRow_eq_some h
    cases hword
    rw [hrow]
    rfl
  case varlen8 => exact decode_varlen8 hw h
  case cmap => exact decode_cmap hw hc h
  case cllen => exact decode_cllen hw h
  case clsym => exact decode_clsym hw hc h
  case btype => exact decode_btype hw hc h
  case blen =>
    obtain ⟨hrow, hword⟩ := whenRow_eq_some h
    obtain ⟨len, rfl, hsym, hbits⟩ := reads_symbolWord hw hc hword
    rw [hsym, hbits, hrow]
    rfl
  case cmd =>
    obtain ⟨hrow, hword⟩ := whenRow_eq_some h
    exact sym_of_symbolWord hw hc hword (by rw [hrow]; rfl)
  case lit =>
    obtain ⟨hrow, hword⟩ := whenRow_eq_some h
    obtain ⟨b, rfl⟩ : ∃ b, i = .lit b := ⟨_, (Option.some.inj hrow).symm⟩
    refine sym_of_symbolWord hw hc hword ?_
    rw [if_pos (show (Instr.lit b).number < 256 from b.isLt), Option.some.inj hrow]
  case dist => exact decode_dist hw hc h

end

/-- Settles O12: the window holds the instruction's word, and every element reads its words back. -/
theorem decodeOfEncode : Obligations.DecodeOfEncode :=
  fun _ _ _ _ _ _ _ hc h hfits hpeek => decode_encode (holdsWord_append hfits hpeek) hc h

/-! ## Every instruction has a word (R110, R111, R128) -/

/-- The instruction has a word at some control position. -/
def HasWord (i : Instr) : Prop := ∃ c v n, encode c i = some (v, n)

/-- The table of the code whose only symbol is `s` (R181, R187). -/
def oneSymbolTable (s : Nat) : HuffmanTable := .build (List.replicate s 0 ++ [1]) Config.huffRootBits

theorem oneSymbolTable_word (s : Nat) : (oneSymbolTable s).word s = some (0, 0) := by
  simp [oneSymbolTable, HuffmanTable.build, HuffmanTable.word, codeWord, usedSymbols]

/-- After a symbol of no bits the word is the extra bits alone. -/
theorem symbolWord_oneSymbolTable (s : Nat) {x m : Nat} (hx : x < 2 ^ m) :
    symbolWord (oneSymbolTable s) s x m = some (x, m) := by
  simp [symbolWord, oneSymbolTable_word, hx]

theorem symbolWord_alone (s : Nat) : symbolWord (oneSymbolTable s) s 0 0 = some (0, 0) :=
  symbolWord_oneSymbolTable s Nat.one_pos

section
variable {c : Ctx} {i : Instr} {row : Option Instr} {x m : Nat}

theorem hasWord_of_eq {v n : Nat} (h : encode c i = some (v, n)) : HasWord i := ⟨c, v, n, h⟩

theorem hasWord_of_row {r : Option (Nat × Nat)} {v n : Nat} (hword : encode c i = whenRow row i r)
    (hrow : row = some i) (hr : r = some (v, n)) : HasWord i :=
  hasWord_of_eq (hword.trans ((if_pos hrow).trans hr))

/-- A row that is one field has a word where its operand fits. -/
theorem hasWord_of_field (hword : encode c i = whenRow row i (fieldWord x m)) (hrow : row = some i)
    (hx : x < 2 ^ m) : HasWord i :=
  hasWord_of_row hword hrow (if_pos hx)

/-- A row that has a symbol has a word where its extra bits fit. -/
theorem hasWord_of_symbol {s : Nat} (hword : encode c i = whenRow row i (symbolWord (oneSymbolTable s) s x m))
    (hrow : row = some i) (hx : x < 2 ^ m) : HasWord i :=
  hasWord_of_row hword hrow (symbolWord_oneSymbolTable s hx)

end

/-- A command symbol is a row of its cell (R280). -/
theorem hasWord_of_cell {k sym : Nat} {row : Nat → Instr} (hrow : cmdRows[k]? = some row)
    (hnumber : (row sym).number = sym) (h : 64 * k ≤ sym ∧ sym < 64 * k + 64) : HasWord (row sym) := by
  refine hasWord_of_symbol (c := .cmd (oneSymbolTable _)) rfl ?_ Nat.one_pos
  rw [hnumber, cmdInstr, show sym / 64 = k by omega, hrow]
  rfl

theorem hasWord_of_inslen {i : Instr} (hrow : inslenInstr i.number i.operand = some i)
    (hx : i.operand < 2 ^ tableAt insXbits i.number) : HasWord i :=
  hasWord_of_field (c := .insLen i.number) rfl hrow hx

theorem hasWord_of_copylen {i : Instr} (hrow : copylenInstr i.number i.operand = some i)
    (hx : i.operand < 2 ^ tableAt copyXbits i.number) : HasWord i :=
  hasWord_of_field (c := .copyLen i.number) rfl hrow hx

theorem hasWord_of_transform {i : Instr} (hrow : transformInstr i.number = some i) : HasWord i :=
  hasWord_of_row (c := .transform i.number) rfl hrow rfl

/-- Settles O13: each row has a word at a control position of its element, the tables there being of one symbol. -/
theorem everyInstructionHasAWord : Obligations.EveryInstructionHasAWord := by
  intro i h
  cases i
  case wbits16 | wbits18 | wbits19 | wbits20 | wbits21 | wbits22 | wbits23 | wbits24 | wbits17 | wbits10 | wbits11 |
      wbits12 | wbits13 | wbits14 | wbits15 | wbitsReserved =>
    exact hasWord_of_eq (c := .streamHeader false) rfl
  case wbitsLarge w => exact hasWord_of_eq (c := .streamHeader true) (if_pos ⟨rfl, of_decide_eq_true h⟩)
  case islast a => cases a <;> exact hasWord_of_eq (c := .isLast) rfl
  case islastempty a => cases a <;> exact hasWord_of_eq (c := .isLastEmpty) rfl
  case isuncompressed a => cases a <;> exact hasWord_of_eq (c := .isUncompressed) rfl
  case rlemaxflag a => cases a <;> exact hasWord_of_eq (c := .rlemaxflag) rfl
  case imtf a => cases a <;> exact hasWord_of_eq (c := .imtf) rfl
  case treeselect a => cases a <;> exact hasWord_of_eq (c := .treeselect) rfl
  case mnibbles_0 | mnibbles_1 | mnibbles_2 | mnibbles_3 => exact hasWord_of_eq (c := .mnibbles) rfl
  case mskipbytes_0 | mskipbytes_1 | mskipbytes_2 | mskipbytes_3 => exact hasWord_of_eq (c := .mskipbytes) rfl
  case cmodeLsb6 | cmodeMsb6 | cmodeUtf8 | cmodeSigned => exact hasWord_of_eq (c := .cmode) rfl
  case hskip_0 | hskip_1 | hskip_2 | hskip_3 => exact hasWord_of_eq (c := .hskip) rfl
  case nsymm1_0 | nsymm1_1 | nsymm1_2 | nsymm1_3 => exact hasWord_of_eq (c := .nsymm1) rfl
  case cllen_0 | cllen_1 | cllen_2 | cllen_3 | cllen_4 | cllen_5 => exact hasWord_of_eq (c := .cllen) rfl
  case reserved => exact hasWord_of_eq (c := .reserved) rfl
  case distImplicit => exact hasWord_of_eq (c := .distImplicit) rfl
  case pad n => exact hasWord_of_row (c := .pad n) rfl rfl rfl
  case finalpad n => exact hasWord_of_row (c := .finalPad n) rfl rfl rfl
  case nbltypes v => exact hasWord_of_row (c := .nbltypes v) rfl rfl rfl
  case ntrees v => exact hasWord_of_row (c := .ntrees v) rfl rfl rfl
  case mlenm1_4n m => exact hasWord_of_field (c := .mlen 4) rfl rfl (of_decide_eq_true h)
  case mlenm1_5n m => exact hasWord_of_field (c := .mlen 5) rfl rfl (of_decide_eq_true h)
  case mlenm1_6n m => exact hasWord_of_field (c := .mlen 6) rfl rfl (of_decide_eq_true h)
  case mskiplenm1_1b k => exact hasWord_of_field (c := .mskiplen 1) rfl rfl (of_decide_eq_true h)
  case mskiplenm1_2b k => exact hasWord_of_field (c := .mskiplen 2) rfl rfl (of_decide_eq_true h)
  case mskiplenm1_3b k => exact hasWord_of_field (c := .mskiplen 3) rfl rfl (of_decide_eq_true h)
  case raw b => exact hasWord_of_field (c := .raw) rfl (by simp [Instr.operand]) b.isLt
  case skip b => exact hasWord_of_field (c := .skip) rfl (by simp [Instr.operand]) b.isLt
  case npostfix p => exact hasWord_of_field (c := .npostfix) rfl rfl (of_decide_eq_true h)
  case ndirecthi d => exact hasWord_of_field (c := .ndirecthi) rfl rfl (of_decide_eq_true h)
  case rlemaxm1 r => exact hasWord_of_field (c := .rlemaxm1) rfl rfl (of_decide_eq_true h)
  case symbol s => exact hasWord_of_field (c := .symbol 11) rfl rfl (of_decide_eq_true h)
  case varlen8_1 | varlen8_2 => exact hasWord_of_eq (c := .varlen8) rfl
  case varlen8_n1 | varlen8_n2 | varlen8_n3 | varlen8_n4 | varlen8_n5 | varlen8_n6 | varlen8_n7 =>
    exact hasWord_of_row (c := .varlen8) rfl rfl (if_pos ⟨of_decide_eq_true h, of_decide_eq_true rfl⟩)
  case inslen0 | inslen1 | inslen2 | inslen3 | inslen4 | inslen5 | inslen6 | inslen7 | inslen8 | inslen9 | inslen10 |
      inslen11 | inslen12 | inslen13 | inslen14 | inslen15 | inslen16 | inslen17 | inslen18 | inslen19 | inslen20 |
      inslen21 | inslen22 | inslen23 =>
    exact hasWord_of_inslen rfl (of_decide_eq_true h)
  case cmapZero => exact hasWord_of_eq (c := .cmap (oneSymbolTable 0) 0) (symbolWord_alone 0)
  case cmapValue s =>
    obtain ⟨hpos, -⟩ : 1 ≤ s ∧ s < 272 := of_decide_eq_true h
    exact hasWord_of_eq (c := .cmap (oneSymbolTable s) 0) ((if_pos ⟨hpos, by omega⟩).trans (symbolWord_alone s))
  case cmapRun1 | cmapRun2 | cmapRun3 | cmapRun4 | cmapRun5 | cmapRun6 | cmapRun7 | cmapRun8 | cmapRun9 | cmapRun10 |
      cmapRun11 | cmapRun12 | cmapRun13 | cmapRun14 | cmapRun15 | cmapRun16 =>
    exact hasWord_of_symbol (c := .cmap (oneSymbolTable _) 16) rfl rfl (of_decide_eq_true h)
  case clsym_0 | clsym_1 | clsym_2 | clsym_3 | clsym_4 | clsym_5 | clsym_6 | clsym_7 | clsym_8 | clsym_9 | clsym_10 |
      clsym_11 | clsym_12 | clsym_13 | clsym_14 | clsym_15 =>
    exact hasWord_of_symbol (c := .clsym (oneSymbolTable _)) rfl rfl Nat.one_pos
  case clsym_16 x =>
    exact hasWord_of_eq (c := .clsym (oneSymbolTable 16)) (symbolWord_oneSymbolTable 16 (of_decide_eq_true h))
  case clsym_17 x =>
    exact hasWord_of_eq (c := .clsym (oneSymbolTable 17)) (symbolWord_oneSymbolTable 17 (of_decide_eq_true h))
  case btypePrev => exact hasWord_of_eq (c := .btype (oneSymbolTable 0)) (symbolWord_alone 0)
  case btypeNext => exact hasWord_of_eq (c := .btype (oneSymbolTable 1)) (symbolWord_alone 1)
  case btypeAbs t =>
    obtain ⟨htwo, -⟩ : 2 ≤ t ∧ t < 258 := of_decide_eq_true h
    exact hasWord_of_eq (c := .btype (oneSymbolTable t)) ((if_pos htwo).trans (symbolWord_alone t))
  case blen_0 | blen_1 | blen_2 | blen_3 | blen_4 | blen_5 | blen_6 | blen_7 | blen_8 | blen_9 | blen_10 | blen_11 |
      blen_12 | blen_13 | blen_14 | blen_15 | blen_16 | blen_17 | blen_18 | blen_19 | blen_20 | blen_21 | blen_22 |
      blen_23 | blen_24 | blen_25 =>
    exact hasWord_of_symbol (c := .blen (oneSymbolTable _)) rfl rfl (of_decide_eq_true h)
  case cmdCell0 => exact hasWord_of_cell (k := 0) rfl rfl (of_decide_eq_true h)
  case cmdCell1 => exact hasWord_of_cell (k := 1) rfl rfl (of_decide_eq_true h)
  case cmdCell2 => exact hasWord_of_cell (k := 2) rfl rfl (of_decide_eq_true h)
  case cmdCell3 => exact hasWord_of_cell (k := 3) rfl rfl (of_decide_eq_true h)
  case cmdCell4 => exact hasWord_of_cell (k := 4) rfl rfl (of_decide_eq_true h)
  case cmdCell5 => exact hasWord_of_cell (k := 5) rfl rfl (of_decide_eq_true h)
  case cmdCell6 => exact hasWord_of_cell (k := 6) rfl rfl (of_decide_eq_true h)
  case cmdCell7 => exact hasWord_of_cell (k := 7) rfl rfl (of_decide_eq_true h)
  case cmdCell8 => exact hasWord_of_cell (k := 8) rfl rfl (of_decide_eq_true h)
  case cmdCell9 => exact hasWord_of_cell (k := 9) rfl rfl (of_decide_eq_true h)
  case cmdCell10 => exact hasWord_of_cell (k := 10) rfl rfl (of_decide_eq_true h)
  case copylen0 | copylen1 | copylen2 | copylen3 | copylen4 | copylen5 | copylen6 | copylen7 | copylen8 | copylen9 |
      copylen10 | copylen11 | copylen12 | copylen13 | copylen14 | copylen15 | copylen16 | copylen17 | copylen18 |
      copylen19 | copylen20 | copylen21 | copylen22 | copylen23 =>
    exact hasWord_of_copylen rfl (of_decide_eq_true h)
  case lit b =>
    exact hasWord_of_symbol (c := .lit (oneSymbolTable _)) rfl (by simp [Instr.number]) Nat.one_pos
  case distShort0 | distShort1 | distShort2 | distShort3 | distShort4 | distShort5 | distShort6 | distShort7 |
      distShort8 | distShort9 | distShort10 | distShort11 | distShort12 | distShort13 | distShort14 | distShort15 =>
    exact hasWord_of_symbol (c := .dist (oneSymbolTable _) 0 0) rfl rfl Nat.one_pos
  case distDirect s =>
    exact hasWord_of_eq (c := .dist (oneSymbolTable s) 0 120) ((if_pos (of_decide_eq_true h)).trans (symbolWord_alone s))
  case distLong s x =>
    obtain ⟨hs, -, hx⟩ : 16 ≤ s ∧ s < 1128 ∧ x < 2 ^ min 62 (1 + (s - 16) / 2) := of_decide_eq_true h
    have hfits : x < 2 ^ distExtraBits 0 0 s := hx.trans_le (Nat.pow_le_pow_right two_pos (min_le_right _ _))
    exact hasWord_of_eq (c := .dist (oneSymbolTable s) 0 0)
      ((if_pos hs).trans (symbolWord_oneSymbolTable s hfits))
  case reset | enableLargeWindow | enableEagerOutput | close => exact hasWord_of_eq (c := .hostCommand [] [] 0) rfl
  case init src => exact hasWord_of_eq (c := .hostCommand src [] 0) (if_pos rfl)
  case attachDictionaryChunk chunk => exact hasWord_of_eq (c := .hostCommand [] chunk 0) (if_pos rfl)
  case decompress cap => exact hasWord_of_eq (c := .hostCommand [] [] cap) (if_pos rfl)
  -- The transforms are left.
  all_goals exact hasWord_of_transform rfl

/-- Settles O11: the decoder run on each word. -/
theorem decodeWords : Obligations.DecodeWords := by
  unfold Obligations.DecodeWords
  decide

/-! ## The stream header (R112, R113, R220) -/

/-- The fields of the pattern `0010001`: a bit of 1, `n` of 0 and `m` of 1 (R112). -/
theorem largePattern_fields {w : Window} (h : w.field 0 7 = 0b0010001) :
    w.field 0 1 = 1 ∧ w.field 1 3 = 0 ∧ w.field 4 3 = 1 := by
  simp only [Window.field] at *
  omega

/-- After the pattern `0010001` the header is the reserved row, or goes on with a RESERVED bit (R112, R113). -/
theorem decode_largePattern {w : Window} (large : Bool) (hlen : 7 ≤ w.avail) (h : w.field 0 7 = 0b0010001) :
    decode (.streamHeader large) w =
      if large then w.bits 7 1 fun reserved =>
        if reserved = 1 then .bad (.error .corruptWindowBits)
        else w.bits 8 6 fun lwbits => .ok (Instr.wbitsLarge lwbits) 14
      else .ok Instr.wbitsReserved 7 := by
  obtain ⟨hfirst, hn, hm⟩ := largePattern_fields h
  simp only [decode]
  rw [bits_available (by omega), hfirst, if_neg one_ne_zero, bits_available (by omega), hn, if_neg (by decide),
    bits_available (by omega), hm, if_neg one_ne_zero, if_pos rfl]

theorem setLargeWindow_of_legal {wb : Nat} (s : State) (h : 10 ≤ wb) (h' : wb ≤ 30) :
    s.setLargeWindow wb = s.setWindow true wb :=
  if_neg (by omega)

/-- Settles O16: the pattern decides between the two headers, and each row sets the window or raises. -/
theorem streamHeaderRows : Obligations.StreamHeaderRows := by
  refine ⟨?fetch, fun w => ⟨?reservedRow, ?reservedBit, ?lwbits⟩, ?window, ?largeWindow, ?illegalWindow, fun _ => rfl⟩
  case fetch =>
    intro s hc hr
    rw [fetch_of_inCall hc, DecoderState.fetch, hr]
  case reservedRow =>
    intro hlen h
    rw [decode_largePattern false hlen h]
    rfl
  case reservedBit =>
    intro hlen h h7
    rw [decode_largePattern true (by omega) h, if_pos rfl, bits_available (by omega), h7, if_pos rfl]
  case lwbits =>
    intro hlen h h7
    rw [decode_largePattern true (by omega) h, if_pos rfl, bits_available (by omega), h7, if_neg zero_ne_one,
      bits_available (by omega)]
  case window =>
    intro wb i s hrow
    exact exec_of_wbits hrow s
  case largeWindow =>
    intro wb s hlow hhigh
    exact congrArg Host.Outcome.next (setLargeWindow_of_legal s hlow hhigh)
  case illegalWindow =>
    intro wb s h
    exact congrArg Host.Outcome.next (if_pos h)

/-! ## The length fields of a meta-block header (R115, R225, R226, R229) -/

theorem fetch_header {s : State} (hc : s.inCall = true) (hr : s.st.runningState = .metablockHeader) :
    s.fetch = s.st.fetchHeader := by
  rw [fetch_of_inCall hc, DecoderState.fetch, hr]

section
variable {n m : Nat} (s : State)

/-- A length whose last nibble counts, or that has the shortest form, is taken (R225). -/
theorem headerLength_of_legal (h : n ≤ 4 ∨ 2 ^ (4 * (n - 1)) ≤ m) :
    s.headerLength n m =
      { s with
        st := if s.st.isLast then { s.st with metaBlockLength := m + 1 }.compressedHeader
          else { s.st with metaBlockLength := m + 1, field := .isUncompressed } } := by
  refine if_neg ?_
  rintro ⟨hn, hzero⟩
  rcases h with hshort | hm
  · omega
  · exact absurd hzero (Nat.div_pos hm (Nat.two_pow_pos _)).ne'

theorem headerLength_of_illegal (hn : 4 < n) (hm : m < 2 ^ (4 * (n - 1))) :
    s.headerLength n m = s.raise .corruptMetablockLength :=
  if_pos ⟨hn, Nat.div_eq_of_lt hm⟩

/-- The length of the bytes to skip, likewise (R226). -/
theorem headerSkipLength_of_legal (h : n ≤ 1 ∨ 2 ^ (8 * (n - 1)) ≤ m) :
    s.headerSkipLength n m = { s with st := { s.st with metaBlockLength := m + 1, field := .pad } } := by
  refine if_neg ?_
  rintro ⟨hn, hzero⟩
  rcases h with hshort | hm
  · omega
  · exact absurd hzero (Nat.div_pos hm (Nat.two_pow_pos _)).ne'

theorem headerSkipLength_of_illegal (hn : 1 < n) (hm : m < 2 ^ (8 * (n - 1))) :
    s.headerSkipLength n m = s.raise .corruptMetablockLength :=
  if_pos ⟨hn, Nat.div_eq_of_lt hm⟩

end

/-- Settles O18: a row's number of nibbles or bytes, and whether the last of them is 0, decide what its length does. -/
theorem metablockLengthRows : Obligations.MetablockLengthRows := by
  refine ⟨fun s n hc hr => ?fetch, fun s m => ⟨fun i hi => ?length, fun i hi => ?skip, fun i hi => ?illegal⟩⟩
  case fetch =>
    rw [fetch_header hc hr]
    exact ⟨fun hf => by rw [DecoderState.fetchHeader, hf], fun hf => by rw [DecoderState.fetchHeader, hf]⟩
  case length =>
    have hexec : exec i s = .next
        { s with
          st := if s.st.isLast then { s.st with metaBlockLength := m + 1 }.compressedHeader
            else { s.st with metaBlockLength := m + 1, field := .isUncompressed } } := by
      rcases hi with rfl | ⟨rfl, hm⟩ | ⟨rfl, hm⟩
      · exact congrArg Host.Outcome.next (headerLength_of_legal (n := 4) s (.inl le_rfl))
      · exact congrArg Host.Outcome.next (headerLength_of_legal (n := 5) s (.inr hm))
      · exact congrArg Host.Outcome.next (headerLength_of_legal (n := 6) s (.inr hm))
    refine ⟨fun hmore => ?_, fun hlast => ?_⟩
    · rw [hexec, hmore]; rfl
    · rw [hexec, hlast]; rfl
  case skip =>
    rcases hi with rfl | ⟨rfl, hm⟩ | ⟨rfl, hm⟩
    · exact congrArg Host.Outcome.next (headerSkipLength_of_legal (n := 1) s (.inl le_rfl))
    · exact congrArg Host.Outcome.next (headerSkipLength_of_legal (n := 2) s (.inr hm))
    · exact congrArg Host.Outcome.next (headerSkipLength_of_legal (n := 3) s (.inr hm))
  case illegal =>
    rcases hi with ⟨rfl, hm⟩ | ⟨rfl, hm⟩ | ⟨rfl, hm⟩ | ⟨rfl, hm⟩
    · exact congrArg Host.Outcome.next (headerLength_of_illegal (n := 5) s (by decide) hm)
    · exact congrArg Host.Outcome.next (headerLength_of_illegal (n := 6) s (by decide) hm)
    · exact congrArg Host.Outcome.next (headerSkipLength_of_illegal (n := 2) s (by decide) hm)
    · exact congrArg Host.Outcome.next (headerSkipLength_of_illegal (n := 3) s (by decide) hm)

/-! ## The simple form (R118, R194) -/

/-- The least width that holds `a` values is the number of bits of `a - 1` (R118). -/
theorem abits_eq {a w : Nat} (ha : 2 ≤ a) (hfits : a ≤ 2 ^ w) (hleast : 2 ^ w < 2 * a) : abits a = w := by
  have hw : w ≠ 0 := by rintro rfl; omega
  obtain ⟨k, rfl⟩ := Nat.exists_eq_succ_of_ne_zero hw
  have hlog : (a - 1).log2 = k := by
    rw [Nat.log2_eq_iff (by omega)]
    rw [pow_succ] at *
    omega
  rw [abits, if_neg (by omega), hlog]

theorem hasDuplicate_eq_false {l : List Nat} : hasDuplicate l = false ↔ l.Nodup := by
  induction l with
  | nil => simp [hasDuplicate]
  | cons x xs ih => simp [hasDuplicate, ih]

theorem fetch_codeReader {s : State} (hc : s.inCall = true) (hr : s.st.runningState = .metablockHuffmanData)
    (ha : s.st.pcActive = true) : s.fetch = s.st.fetchPrefixCode := by
  rw [fetch_of_inCall hc, DecoderState.fetch, hr]
  exact if_pos ha

section
variable (s : State) {symbols : List Nat} (a : Bool)

/-- The range is tested before duplicates (R194). -/
theorem endSimple_of_outOfRange (h : ∃ x ∈ symbols, s.st.pcAlphaLimit ≤ x) :
    s.endSimple symbols a = s.raise .incompleteHuffmanCode :=
  if_pos (by simpa using h)

theorem endSimple_of_duplicate (h : ∀ x ∈ symbols, x < s.st.pcAlphaLimit) (hdup : ¬ symbols.Nodup) :
    s.endSimple symbols a = s.raise .duplicateSimpleHuffmanSymbol := by
  rw [State.endSimple, if_neg (by simpa using h),
    if_pos (by rwa [← Bool.not_eq_false, hasDuplicate_eq_false])]

theorem endSimple_of_nodup (h : ∀ x ∈ symbols, x < s.st.pcAlphaLimit) (hnodup : symbols.Nodup) :
    s.endSimple symbols a =
      { s with
        st := { s.st with field := .start }.deliver
          (.build (simpleLengths symbols a s.st.pcAlphaLimit) Config.huffRootBits) } := by
  rw [State.endSimple, if_neg (by simpa using h), if_neg (by rw [hasDuplicate_eq_false.mpr hnodup]; decide)]

end

section
variable {s : State} {nsym : Nat} {read : List Nat} (x : Nat) (hf : s.st.field = .symbol nsym read)
include hf

theorem simpleSymbol_of_more (h : read.length + 1 < nsym) :
    s.simpleSymbol x = { s with st := { s.st with field := .symbol nsym (read ++ [x]) } } := by
  simp [State.simpleSymbol, hf, Field.symbols, h]

theorem simpleSymbol_of_four (h : read.length + 1 = 4) (hn : nsym = 4) :
    s.simpleSymbol x = { s with st := { s.st with field := .treeSelect (read ++ [x]) } } := by
  simp [State.simpleSymbol, hf, Field.symbols, h, hn]

/-- The last symbol of a form of fewer than four ends it. -/
theorem simpleSymbol_of_last (h : nsym = (read ++ [x]).length) (hn : nsym ≠ 4) :
    s.simpleSymbol x = s.endSimple (read ++ [x]) false := by
  subst h
  simp_all [State.simpleSymbol, Field.symbols]

end

/-- Settles O26: a form that is complete ends in `endSimple`, with the symbols listed. -/
theorem simpleCodeRows : Obligations.SimpleCodeRows := by
  refine ⟨?fetch, ?more, ?last⟩
  case fetch =>
    intro s hc hr ha hp
    rw [fetch_codeReader hc hr ha]
    refine ⟨fun nsym read w hf halpha hfits hleast => ?_, fun read hf => ?_⟩
    · rw [DecoderState.fetchPrefixCode, hp, hf, ← abits_eq halpha hfits hleast]
    · rw [DecoderState.fetchPrefixCode, hp, hf]
  case more =>
    intro s x nsym read hf
    exact ⟨fun h => congrArg Host.Outcome.next (simpleSymbol_of_more x hf h),
      fun h hn => congrArg Host.Outcome.next (simpleSymbol_of_four x hf h hn)⟩
  case last =>
    intro s i symbols a h
    have hexec : exec i s = .next (s.endSimple symbols a) := by
      rcases h with ⟨x, nsym, read, rfl, hf, rfl, hlen, hn, rfl⟩ | ⟨rfl, hf⟩
      · exact congrArg Host.Outcome.next (simpleSymbol_of_last x hf hlen hn)
      · show Host.Outcome.next (s.endSimple s.st.field.symbols.2 a) = _
        rw [hf]
        rfl
    rw [hexec]
    exact ⟨fun hout => by rw [endSimple_of_outOfRange s a hout],
      fun hin hdup => by rw [endSimple_of_duplicate s a hin hdup],
      fun hin hnodup => by rw [endSimple_of_nodup s a hin hnodup]⟩

end Sys2Proof.Proofs

/-! The statements about the bit reader and the end of the stream (40_bitreader.md). -/

namespace Sys2Proof.Proofs

open Sys2Proof.Machine Sys2Proof.Laws

/-! ## What the end of the stream cuts off (R152, R156, R192, R452) -/

/-- A field of which a bit is missing at the end of the stream (R152). -/
theorem bits_missing {w : Window} {n : Nat} {k : Nat → Read} (heof : w.eof = true) (hshort : w.avail < n) :
    w.bits 0 n k = .bad (.error .unexpectedEOF) := by
  rw [Window.bits, if_neg (by omega), if_pos heof]

/-- At the end of the stream nothing is waited for: a symbol is read as a field of its word's length (R190, R192). -/
theorem sym_at_end {w : Window} {T : HuffmanTable} {k : Nat → Nat → Read} {s n : Nat} (heof : w.eof = true)
    (hT : T.lookup (w.field 0 15) = some (s, n)) : w.sym 0 T k = w.bits 0 n fun _ => k s (0 + n) := by
  have hnowait : ¬ (w.avail < 0 + 15 ∧ w.eof = false) := fun h => absurd (heof.symm.trans h.2) nofun
  rw [Window.sym, if_neg hnowait, hT]
  rfl

/-- The answer `r'`, read from a stream that ends earlier, is `r`, unless the end cuts the element off. -/
def SameOrCutOff (r r' : Read) : Prop := r' = r ∨ r' = .bad (.error .unexpectedEOF)

theorem sameOrCutOff_refl (r : Read) : SameOrCutOff r r := .inl rfl

theorem sameOrCutOff_ite {p : Prop} [Decidable p] {a a' b b' : Read} (ha : SameOrCutOff a a') (hb : SameOrCutOff b b') :
    SameOrCutOff (if p then a else b) (if p then a' else b') := by
  split
  · exact ha
  · exact hb

section
variable {v m l : Nat} (hle : m ≤ l)
include hle

/-- A field that is still there has the value it had (R153). -/
theorem bits_sameOrCutOff {p n : Nat} {k k' : Nat → Read} (hk : ∀ x, SameOrCutOff (k x) (k' x)) :
    SameOrCutOff (Window.bits ⟨v, l, true⟩ p n k) (Window.bits ⟨v, m, true⟩ p n k') := by
  by_cases hfits : p + n ≤ m
  · rw [bits_available (w := ⟨v, m, true⟩) hfits, bits_available (w := ⟨v, l, true⟩) (hfits.trans hle)]
    exact hk _
  · exact .inr (if_neg hfits)

/-- The peek of a symbol does not see where the stream ends (R190). -/
theorem sym_sameOrCutOff {T : HuffmanTable} {k k' : Nat → Nat → Read} (hk : ∀ s n, SameOrCutOff (k s n) (k' s n)) :
    SameOrCutOff (Window.sym ⟨v, l, true⟩ 0 T k) (Window.sym ⟨v, m, true⟩ 0 T k') := by
  cases hT : T.lookup (Window.field ⟨v, l, true⟩ 0 15) with
  | none =>
    have hhole (n : Nat) (f : Nat → Nat → Read) : Window.sym ⟨v, n, true⟩ 0 T f = .bad .tableHole := by
      rw [Window.sym, if_neg (by simp), show T.lookup (Window.field ⟨v, n, true⟩ 0 15) = none from hT]
    rw [hhole, hhole]
    exact sameOrCutOff_refl _
  | some p =>
    rw [sym_at_end rfl hT, sym_at_end (w := ⟨v, m, true⟩) rfl hT]
    exact bits_sameOrCutOff hle fun _ => hk _ _

/-- Every element of a stream that ends earlier is read as before or cut off: its fields are read in order (R110). -/
theorem decode_sameOrCutOff (c : Ctx) : SameOrCutOff (decode c ⟨v, l, true⟩) (decode c ⟨v, m, true⟩) := by
  cases c <;> simp only [decode]
  case nbltypes | ntrees | distImplicit | transform => exact sameOrCutOff_refl _
  case hostCommand | isLast | isLastEmpty | mnibbles | isUncompressed | reserved | mskipbytes | pad | finalPad | raw |
      skip | npostfix | ndirecthi | cmode | rlemaxflag | rlemaxm1 | imtf | hskip | nsymm1 | symbol | treeselect |
      insLen | copyLen =>
    exact bits_sameOrCutOff hle fun _ => sameOrCutOff_refl _
  case btype | cmd | lit => exact sym_sameOrCutOff hle fun _ _ => sameOrCutOff_refl _
  case blen => exact sym_sameOrCutOff hle fun _ _ => bits_sameOrCutOff hle fun _ => sameOrCutOff_refl _
  case mlen | mskiplen =>
    split
    case h_4 => exact sameOrCutOff_refl _
    all_goals exact bits_sameOrCutOff hle fun _ => sameOrCutOff_refl _
  case streamHeader =>
    refine bits_sameOrCutOff hle fun _ => sameOrCutOff_ite (sameOrCutOff_refl _) ?_
    refine bits_sameOrCutOff hle fun _ => sameOrCutOff_ite (sameOrCutOff_refl _) ?_
    refine bits_sameOrCutOff hle fun _ => sameOrCutOff_ite (sameOrCutOff_refl _) ?_
    refine sameOrCutOff_ite (sameOrCutOff_ite ?_ (sameOrCutOff_refl _)) (sameOrCutOff_refl _)
    refine bits_sameOrCutOff hle fun _ => ?_
    exact sameOrCutOff_ite (sameOrCutOff_refl _) (bits_sameOrCutOff hle fun _ => sameOrCutOff_refl _)
  case varlen8 =>
    refine bits_sameOrCutOff hle fun _ => sameOrCutOff_ite (sameOrCutOff_refl _) ?_
    refine bits_sameOrCutOff hle fun _ => sameOrCutOff_ite (sameOrCutOff_refl _) ?_
    exact bits_sameOrCutOff hle fun _ => sameOrCutOff_refl _
  case cmap =>
    refine sym_sameOrCutOff hle fun _ _ => sameOrCutOff_ite (sameOrCutOff_refl _) ?_
    exact sameOrCutOff_ite (bits_sameOrCutOff hle fun _ => sameOrCutOff_refl _) (sameOrCutOff_refl _)
  case clsym =>
    refine sym_sameOrCutOff hle fun _ _ => sameOrCutOff_ite ?_ (sameOrCutOff_ite ?_ (sameOrCutOff_refl _))
    · exact bits_sameOrCutOff hle fun _ => sameOrCutOff_refl _
    · exact bits_sameOrCutOff hle fun _ => sameOrCutOff_refl _
  case dist =>
    refine sym_sameOrCutOff hle fun _ _ => sameOrCutOff_ite (sameOrCutOff_refl _) ?_
    exact sameOrCutOff_ite (sameOrCutOff_refl _) (bits_sameOrCutOff hle fun _ => sameOrCutOff_refl _)
  case cllen =>
    have hnowait (n : Nat) : ¬ (n < 4 ∧ true = false) := nofun
    have hpeek : Window.field ⟨v, l, true⟩ 0 4 = Window.field ⟨v, m, true⟩ 0 4 := rfl
    rw [if_neg (hnowait l), if_neg (hnowait m), hpeek]
    by_cases hfits : (cllenRow (Window.field ⟨v, m, true⟩ 0 4)).1 ≤ m
    · rw [if_pos hfits, if_pos (hfits.trans hle)]
      exact sameOrCutOff_refl _
    · exact .inr (if_neg hfits)

end

/-- An element that takes more bits than are left is cut off: it would be read as before, but not from these bits. -/
theorem decode_cutOff {c : Ctx} {v m l n : Nat} {i : Instr} (hle : m ≤ l) (h : decode c ⟨v, l, true⟩ = .ok i n)
    (hshort : m < n) : decode c ⟨v, m, true⟩ = .bad (.error .unexpectedEOF) :=
  (decode_sameOrCutOff hle c).resolve_left fun hsame =>
    absurd (decode_consumes (hsame.trans h)) (Nat.not_le.mpr hshort)

/-- Settles O15: an answer fits its window, and what the end cuts off is the field, the symbol or the element read. -/
theorem decodingStaysInTheStream : Obligations.DecodingStaysInTheStream := by
  unfold Obligations.DecodingStaysInTheStream
  refine ⟨fun _ _ _ _ => decode_consumes, fun c w heof hneed => ?waits,
    fun _ _ _ _ _ _ h hshort => decode_cutOff (Nat.le_add_right _ _) h hshort,
    fun c n w hc heof hshort => ?field, fun c T s n w hc hT heof hshort => ?symbol⟩
  case waits => exact absurd (heof.symm.trans (decode_need hneed)) nofun
  case field =>
    rcases hc with hfixed | rfl | rfl | rfl | ⟨code, ⟨rfl, rfl⟩ | ⟨rfl, rfl⟩⟩
    case inl =>
      simp only [List.mem_cons, Prod.mk.injEq, List.not_mem_nil, or_false] at hfixed
      casesm* _ ∨ _
      all_goals
        obtain ⟨rfl, rfl⟩ := ‹_ ∧ _›
        simp only [decode, bits_missing heof hshort]
    all_goals simp only [decode, bits_missing heof hshort]
  case symbol =>
    have hmissing (k : Nat → Nat → Read) : w.sym 0 T k = .bad (.error .unexpectedEOF) := by
      rw [sym_at_end heof hT, bits_missing heof hshort]
    rcases hc with rfl | rfl | rfl | rfl | rfl | ⟨_, rfl⟩ | ⟨_, _, rfl⟩
    all_goals simp only [decode, hmissing]

/-! ## The pull (R150, R155) -/

section
variable {s : State}

/-- Bytes that fit the free space are taken whole (R155). -/
theorem pull_of_bytes {bs : List Byte} {rest : List SourceAnswer} (h : s.source = .bytes bs :: rest) (hne : bs ≠ [])
    (hfits : bs.length ≤ s.pullMax) :
    s.pull = { s with IN := s.IN ++ bs, inLen := s.inLen + bs.length, source := rest } := by
  obtain ⟨b, tail, rfl⟩ := List.exists_cons_of_ne_nil hne
  rw [State.pull, h]
  simp only [List.take_of_length_le hfits, if_pos hfits]

theorem pull_of_eof {rest : List SourceAnswer} (h : s.source = .eof :: rest) : s.pull = { s with srcEOF := true } := by
  rw [State.pull, h]

theorem pull_of_noData {rest : List SourceAnswer} (h : s.source = .noData :: rest) :
    s.pull = State.suspend { s with source := rest } := by
  rw [State.pull, h]

theorem pull_of_fail {rest : List SourceAnswer} (h : s.source = .fail :: rest) :
    s.pull = State.raise .readFailed { s with srcFail := true, source := rest } := by
  rw [State.pull, h]

end

/-- Settles O10: one answer of the source for each outcome; without data the call suspends, and a failure is an error. -/
theorem pullOutcomes : Obligations.PullOutcomes := by
  refine fun s _ => ⟨le_max_left _ _, max_le (by decide) (Nat.sub_le _ _), fun _ _ => pull_of_bytes,
    fun _ => pull_of_eof, fun _ => pull_of_noData, fun rest h hc => ?fail⟩
  case fail =>
    rw [pull_of_fail h, State.raise]
    simp only [hc, if_true]
    rfl

/-! ## Padding and the end of the stream (R157, R159, R226, R228, R392) -/

theorem fetch_finished {s : State} (hc : s.inCall = true) (hr : s.st.runningState = .finished) :
    s.fetch = s.st.fetchFinished := by
  rw [fetch_of_inCall hc, DecoderState.fetch, hr]

/-- The padding is less than a byte and ends at a byte boundary (R157). -/
theorem padWidth_aligns (st : DecoderState) : st.padWidth < 8 ∧ (st.bitpos + st.padWidth) % 8 = 0 := by
  unfold DecoderState.padWidth
  omega

/-- Settles O19: padding that is all there is one field, and its row goes on to the payload or the end-of-stream test. -/
theorem paddingRows : Obligations.PaddingRows := by
  refine ⟨fun s hc => ⟨?header, ?finished⟩, padWidth_aligns, fun w n hn => ⟨?pad, ?finalPad⟩, fun _ _ => rfl,
    fun _ _ => rfl⟩
  case header =>
    intro hr hf
    rw [fetch_header hc hr, DecoderState.fetchHeader, hf]
  case finished =>
    intro hr hf
    rw [fetch_finished hc hr, DecoderState.fetchFinished, hf]
  case pad | finalPad =>
    simp only [decode]
    exact bits_available ((Nat.zero_add n).trans_le hn) _

/-- Settles O47: the three outcomes are the branches of the Finished step. -/
theorem endOfStream : Obligations.EndOfStream := by
  refine ⟨fun s hc hr hf => ?fetch,
    fun s => ⟨fun hleft => if_pos hleft, fun hread heof => ?done, fun hread hmore => ?ask⟩⟩
  case fetch => rw [fetch_finished hc hr, DecoderState.fetchFinished, hf]
  case done =>
    show s.stepAtEnd = _
    rw [State.stepAtEnd, if_neg hread.not_gt, if_pos heof]
    rfl
  case ask =>
    show s.stepAtEnd = _
    rw [State.stepAtEnd, if_neg hread.not_gt, if_neg (Bool.eq_false_iff.mp hmore)]

end Sys2Proof.Proofs

/-! The statements about Huffman codes and their tables (41_huffman.md). -/

namespace Sys2Proof.Proofs

open Sys2Proof.Machine Sys2Proof.Laws

/-! ## Words of a canonical code as stream fields (R180, R184, R186) -/

theorem reverseBits_lt (n v : Nat) : reverseBits n v < 2 ^ n := by
  induction n generalizing v with
  | zero => exact Nat.one_pos
  | succ n ih =>
    have := ih (v / 2)
    have : v % 2 * 2 ^ n ≤ 1 * 2 ^ n := Nat.mul_le_mul_right _ (by omega)
    rw [reverseBits, pow_succ]
    omega

/-- The first `m` stream bits of a word are the upper bits of its code value. -/
theorem reverseBits_mod (m k c : Nat) : reverseBits (m + k) c % 2 ^ m = reverseBits m (c / 2 ^ k) := by
  induction k generalizing c with
  | zero => rw [pow_zero, Nat.div_one, Nat.add_zero, Nat.mod_eq_of_lt (reverseBits_lt m c)]
  | succ k ih =>
    have hhigh : c % 2 * 2 ^ (m + k) = 2 ^ m * (c % 2 * 2 ^ k) := by ring
    rw [← Nat.add_assoc, reverseBits, hhigh, Nat.mul_add_mod, ih, Nat.div_div_eq_div_mul, pow_succ']

theorem reverseBits_mul_pow (m k c : Nat) : reverseBits (m + k) (c * 2 ^ k) = reverseBits m c := by
  induction k with
  | zero => rw [pow_zero, Nat.mul_one, Nat.add_zero]
  | succ k ih =>
    have heven : c * 2 ^ (k + 1) = 2 * (c * 2 ^ k) := by ring
    rw [← Nat.add_assoc, reverseBits, heven, Nat.mul_mod_right, Nat.mul_div_cancel_left _ Nat.two_pos, ih]
    omega

theorem reverseBits_injOn {n a b : Nat} (ha : a < 2 ^ n) (hb : b < 2 ^ n) (h : reverseBits n a = reverseBits n b) :
    a = b := by
  induction n generalizing a b with
  | zero => omega
  | succ n ih =>
    have hla := reverseBits_lt n (a / 2)
    have hlb := reverseBits_lt n (b / 2)
    rw [reverseBits, reverseBits] at h
    rw [pow_succ] at ha hb
    have hparity : a % 2 = b % 2 := by
      rcases Nat.mod_two_eq_zero_or_one a with h0 | h0 <;> rcases Nat.mod_two_eq_zero_or_one b with h1 | h1 <;>
        rw [h0, h1] at h ⊢ <;> omega
    have := ih (a := a / 2) (b := b / 2) (by omega) (by omega) (by rw [hparity] at h; omega)
    omega

/-- `NextKey` steps from one word of a length to the next; it looks at the low `n` bits of the key only (R186). -/
theorem nextKey_eq {n c key : Nat} (hkey : key % 2 ^ n = reverseBits n c) (hc : c + 1 < 2 ^ n) :
    nextKey key n = reverseBits n (c + 1) := by
  induction n generalizing c with
  | zero => omega
  | succ n ih =>
    have hlow : key % 2 ^ n = reverseBits n (c / 2) := by
      rw [← Nat.mod_mod_of_dvd key (pow_dvd_pow 2 n.le_succ), hkey, reverseBits_mod n 1 c, pow_one]
    have hbit : key / 2 ^ n % 2 = c % 2 := by
      rw [← Nat.mod_mul_right_div_self, ← pow_succ, hkey, reverseBits, Nat.mul_comm,
        Nat.mul_add_div (Nat.two_pow_pos n), Nat.div_eq_of_lt (reverseBits_lt n _), Nat.add_zero]
    rw [nextKey, hbit, reverseBits]
    rw [pow_succ] at hc
    rcases Nat.mod_two_eq_zero_or_one c with heven | hodd
    · have hnext : (c + 1) % 2 = 1 := by omega
      have hhalf : (c + 1) / 2 = c / 2 := by omega
      rw [if_neg (by omega), hlow, hnext, hhalf, Nat.one_mul, Nat.add_comm]
    · have hnext : (c + 1) % 2 = 0 := by omega
      have hhalf : (c + 1) / 2 = c / 2 + 1 := by omega
      rw [if_pos hodd, ih hlow (by omega), hnext, hhalf, Nat.zero_mul, Nat.zero_add]

/-- The stream field of the first `l` bits of position `P`, positions being counted in units of 2^-15 (R181, R184). -/
def wordAt (P l : Nat) : Nat := reverseBits l (P / 2 ^ (15 - l))

theorem wordAt_lt (P l : Nat) : wordAt P l < 2 ^ l := reverseBits_lt _ _

theorem wordAt_mod {l m : Nat} (P : Nat) (hm : m ≤ l) (hl : l ≤ 15) : wordAt P l % 2 ^ m = wordAt P m := by
  obtain ⟨k, rfl⟩ := Nat.exists_eq_add_of_le hm
  rw [wordAt, reverseBits_mod, Nat.div_div_eq_div_mul, ← pow_add, wordAt]
  congr 3
  omega

theorem wordAt_eq_iff {l P Q : Nat} (hl : l ≤ 15) (hP : P < 2 ^ 15) (hQ : Q < 2 ^ 15) :
    wordAt P l = wordAt Q l ↔ P / 2 ^ (15 - l) = Q / 2 ^ (15 - l) := by
  have hlt {R : Nat} (hR : R < 2 ^ 15) : R / 2 ^ (15 - l) < 2 ^ l := by
    rw [Nat.div_lt_iff_lt_mul (Nat.two_pow_pos _), ← pow_add, Nat.add_sub_cancel' hl]
    exact hR
  exact ⟨reverseBits_injOn (hlt hP) (hlt hQ), congrArg _⟩

/-- At the start of a word of `l` bits the other bits of the position are 0. -/
theorem wordAt_of_dvd {l P : Nat} (hl : l ≤ 15) (h : 2 ^ (15 - l) ∣ P) : wordAt P 15 = wordAt P l := by
  obtain ⟨c, rfl⟩ := h
  have hrev := reverseBits_mul_pow l (15 - l) c
  rw [Nat.add_sub_cancel' hl, Nat.mul_comm] at hrev
  rw [wordAt, wordAt, Nat.sub_self, pow_zero, Nat.div_one, hrev, Nat.mul_div_cancel_left _ (Nat.two_pow_pos _)]

/-- `NextKey` steps to the word that follows one of `l` bits (R186). -/
theorem nextKey_wordAt {l P : Nat} (hl : l ≤ 15) (h : 2 ^ (15 - l) ∣ P) (hnext : P + 2 ^ (15 - l) < 2 ^ 15) :
    nextKey (wordAt P 15) l = wordAt (P + 2 ^ (15 - l)) 15 := by
  have hstep : (P + 2 ^ (15 - l)) / 2 ^ (15 - l) = P / 2 ^ (15 - l) + 1 := Nat.add_div_right _ (Nat.two_pow_pos _)
  rw [wordAt_of_dvd hl (h.add dvd_rfl)]
  show _ = reverseBits l ((P + 2 ^ (15 - l)) / 2 ^ (15 - l))
  rw [hstep]
  refine nextKey_eq ?_ ?_
  · rw [wordAt_mod P hl le_rfl]
    rfl
  · rw [← hstep, Nat.div_lt_iff_lt_mul (Nat.two_pow_pos _), ← pow_add, Nat.add_sub_cancel' hl]
    exact hnext

/-- No stream begins with two words, where the second starts after the first has ended and is no shorter (R180). -/
theorem wordAt_disjoint {P Q l m v : Nat} (hm : m ≤ l) (hl : l ≤ 15) (hQ : Q < 2 ^ 15) (hafter : P + 2 ^ (15 - m) ≤ Q)
    (hv : v % 2 ^ m = wordAt P m) : v % 2 ^ l ≠ wordAt Q l := by
  intro hv'
  have hsame : wordAt Q m = wordAt P m := by
    rw [← wordAt_mod Q hm hl, ← hv', Nat.mod_mod_of_dvd v (pow_dvd_pow 2 hm), hv]
  have hprefix := (wordAt_eq_iff (hm.trans hl) hQ (by have := Nat.two_pow_pos (15 - m); omega)).mp hsame
  have := Nat.div_le_div_right (c := 2 ^ (15 - m)) hafter
  rw [Nat.add_div_right _ (Nat.two_pow_pos _)] at this
  omega

/-! ## The symbols in the order of their words (R180, R181) -/

/-- The code space the symbols of `ps`, pairs of a length and a symbol, take up, in units of 2^-15 (R181). -/
def mass (ps : List (Nat × Nat)) : Nat := (ps.map fun p => 2 ^ (15 - p.1)).sum

@[simp] theorem mass_nil : mass [] = 0 := rfl

@[simp] theorem mass_cons (p : Nat × Nat) (ps : List (Nat × Nat)) : mass (p :: ps) = 2 ^ (15 - p.1) + mass ps := rfl

@[simp] theorem mass_append (ps qs : List (Nat × Nat)) : mass (ps ++ qs) = mass ps + mass qs := by
  simp [mass]

/-- A word takes half the space of one a bit shorter. -/
theorem space_halves {l : Nat} (h : l < 15) : 2 ^ (15 - l) = 2 * 2 ^ (15 - (l + 1)) := by
  rw [← pow_succ']
  congr 1
  omega

theorem mass_le_of_prefix {ps qs : List (Nat × Nat)} (h : ps <+: qs) : mass ps ≤ mass qs := by
  obtain ⟨rest, rfl⟩ := h
  rw [mass_append]
  exact Nat.le_add_right _ _

/-- A word ends where the next one may start. -/
theorem mass_add_le_of_prefix {ps qs : List (Nat × Nat)} {p : Nat × Nat} (h : ps ++ [p] <+: qs) :
    mass ps + 2 ^ (15 - p.1) ≤ mass qs := by
  simpa using mass_le_of_prefix h

theorem dvd_mass {ps : List (Nat × Nat)} {l : Nat} (h : ∀ p ∈ ps, p.1 ≤ l) : 2 ^ (15 - l) ∣ mass ps := by
  refine List.dvd_sum fun x hx => ?_
  obtain ⟨p, hp, rfl⟩ := List.mem_map.mp hx
  have := h p hp
  exact pow_dvd_pow 2 (by omega)

/-- The code space of the symbols shorter than `l`. -/
def massBelow (ps : List (Nat × Nat)) (l : Nat) : Nat := mass (ps.filter (·.1 < l))

theorem massBelow_succ (ps : List (Nat × Nat)) (l : Nat) :
    massBelow ps (l + 1) = massBelow ps l + (ps.map Prod.fst).count l * 2 ^ (15 - l) := by
  induction ps with
  | nil => simp [massBelow]
  | cons p ps ih =>
    simp only [massBelow, List.filter_cons, List.map_cons, List.count_cons, beq_iff_eq, decide_eq_true_eq] at ih ⊢
    rcases lt_trichotomy p.1 l with h | rfl | h
    · rw [if_pos (by omega), if_pos h, if_neg h.ne, mass_cons, mass_cons, ih, Nat.add_zero, Nat.add_assoc]
    · rw [if_pos (by omega), if_neg (by omega), if_pos rfl, mass_cons, ih]
      ring
    · rw [if_neg (by omega), if_neg (by omega), if_neg h.ne', ih, Nat.add_zero]

/-- In a sorted list the symbols shorter than one of them stand before it. -/
theorem massBelow_le {ps xs : List (Nat × Nat)} {p : Nat × Nat} {l : Nat} (hsorted : ps.Pairwise (·.1 ≤ ·.1))
    (hp : xs ++ [p] <+: ps) (hl : l ≤ p.1) : massBelow ps l ≤ mass xs := by
  obtain ⟨ys, rfl⟩ := hp
  rw [List.append_assoc] at hsorted
  have hlate : ∀ q ∈ p :: ys, ¬ q.1 < l := by
    intro q hq
    rcases List.mem_cons.mp hq with rfl | hq
    · omega
    · have := List.rel_of_pairwise_cons (List.pairwise_append.mp hsorted).2.1 hq
      omega
  have hnone : (p :: ys).filter (·.1 < l) = [] := List.filter_eq_nil_iff.mpr fun q hq => by simpa using hlate q hq
  rw [massBelow, List.append_assoc, List.filter_append, List.singleton_append, hnone, List.append_nil]
  exact ((List.filter_sublist ..).map _).sum_le_sum fun _ _ => Nat.zero_le _

/-- The symbols of length `k + 1` as the sorted list has them. -/
def symbolsOfLength (L : List Nat) (k : Nat) : List (Nat × Nat) := (symbolsFrom (k + 1) 0 L).map fun s => (k + 1, s)

theorem sortedSymbols_eq (L : List Nat) : sortedSymbols L = (List.range 15).flatMap (symbolsOfLength L) := rfl

theorem fst_of_mem_symbolsOfLength {L : List Nat} {k : Nat} {p : Nat × Nat} (h : p ∈ symbolsOfLength L k) :
    p.1 = k + 1 := by
  obtain ⟨s, -, rfl⟩ := List.mem_map.mp h
  rfl

theorem map_fst_symbolsOfLength (L : List Nat) (k : Nat) :
    (symbolsOfLength L k).map Prod.fst = List.replicate (L.count (k + 1)) (k + 1) := by
  rw [List.eq_replicate_iff, List.length_map, symbolsOfLength, List.length_map, length_symbolsFrom]
  refine ⟨rfl, fun l hl => ?_⟩
  obtain ⟨p, hp, rfl⟩ := List.mem_map.mp hl
  exact fst_of_mem_symbolsOfLength hp

theorem mass_map_mk (l : Nat) (ss : List Nat) : mass (ss.map fun s => (l, s)) = ss.length * 2 ^ (15 - l) := by
  simp [mass, Function.comp_def]

theorem sortedSymbols_pairwise (L : List Nat) : (sortedSymbols L).Pairwise (·.1 ≤ ·.1) := by
  rw [sortedSymbols_eq, List.pairwise_flatMap]
  constructor
  · intro k _
    refine List.pairwise_of_forall_mem_list fun p hp q hq => ?_
    rw [fst_of_mem_symbolsOfLength hp, fst_of_mem_symbolsOfLength hq]
  · refine List.pairwise_lt_range.imp fun hlt p hp q hq => ?_
    rw [fst_of_mem_symbolsOfLength hp, fst_of_mem_symbolsOfLength hq]
    omega

theorem count_flatMap_symbolsOfLength (L : List Nat) (n l : Nat) :
    (((List.range n).flatMap (symbolsOfLength L)).map Prod.fst).count l = if 1 ≤ l ∧ l ≤ n then L.count l else 0 := by
  induction n with
  | zero => rw [if_neg (by omega)]; rfl
  | succ n ih =>
    rw [List.range_succ, List.flatMap_append, List.map_append, List.count_append, ih, List.flatMap_singleton,
      map_fst_symbolsOfLength, List.count_replicate]
    simp only [beq_iff_eq]
    rcases lt_trichotomy l (n + 1) with h | rfl | h
    · rw [if_neg h.ne']
      exact if_congr (by omega) rfl rfl
    · rw [if_neg (by omega), if_pos rfl, if_pos (by omega), Nat.zero_add]
    · rw [if_neg (by omega), if_neg h.ne, if_neg (by omega)]

/-- A length from 1 to 15 is listed as often as symbols have it (R180). -/
theorem count_sortedSymbols {L : List Nat} {l : Nat} (h1 : 1 ≤ l) (h15 : l ≤ 15) :
    ((sortedSymbols L).map Prod.fst).count l = L.count l := by
  rw [sortedSymbols_eq, count_flatMap_symbolsOfLength, if_pos ⟨h1, h15⟩]

/-- The lengths of the symbols listed are the lengths other than 0 (R180). -/
theorem map_fst_sortedSymbols_perm {L : List Nat} (hL : ∀ l ∈ L, l ≤ 15) :
    ((sortedSymbols L).map Prod.fst).Perm (L.filter (· ≠ 0)) := by
  rw [List.perm_iff_count]
  intro l
  rw [sortedSymbols_eq, count_flatMap_symbolsOfLength]
  rcases Nat.eq_zero_or_pos l with rfl | hpos
  · exact (List.count_eq_zero_of_not_mem (by simp)).symm
  · rw [List.count_filter (by simpa using hpos.ne')]
    split
    · rfl
    · exact (List.count_eq_zero_of_not_mem fun hmem => by have := hL l hmem; omega).symm

theorem mass_sortedSymbols {L : List Nat} (hL : ∀ l ∈ L, l ≤ 15) : mass (sortedSymbols L) = kraftSum L := by
  rw [mass, kraftSum, ← ((map_fst_sortedSymbols_perm hL).map fun l => 2 ^ (15 - l)).sum_eq, List.map_map]
  rfl

theorem length_sortedSymbols_eq {L : List Nat} (hL : ∀ l ∈ L, l ≤ 15) : (sortedSymbols L).length = usedSymbols L := by
  rw [usedSymbols, ← (map_fst_sortedSymbols_perm hL).length_eq, List.length_map]

/-- The first word of a length starts where the shorter ones end (R180). -/
theorem mass_flatMap_symbolsOfLength (L : List Nat) {k : Nat} (hk : k < 15) :
    mass ((List.range k).flatMap (symbolsOfLength L)) = firstCode L (k + 1) * 2 ^ (15 - (k + 1)) := by
  induction k with
  | zero => simp [firstCode]
  | succ k ih =>
    rw [List.range_succ, List.flatMap_append, mass_append, ih (by omega), List.flatMap_singleton, symbolsOfLength,
      mass_map_mk, length_symbolsFrom, firstCode.eq_def L (k + 1 + 1)]
    simp only [Nat.add_one_ne_zero, if_false]
    rw [space_halves hk]
    ring

theorem symbolsFrom_split {L : List Nat} {s : Nat} (b : Nat) (hs : s < L.length) :
    symbolsFrom L[s] b (L.take s) ++ [b + s] <+: symbolsFrom L[s] b L := by
  induction L generalizing s b with
  | nil => exact absurd hs (Nat.not_lt_zero s)
  | cons l ls ih =>
    cases s with
    | zero => simp [symbolsFrom]
    | succ s =>
      have := ih (b + 1) (Nat.lt_of_succ_lt_succ hs)
      rw [Nat.add_assoc, Nat.add_comm 1] at this
      rw [List.getElem_cons_succ, List.take_succ_cons, symbolsFrom, symbolsFrom]
      split
      · exact (List.prefix_cons_inj b).mpr this
      · exact this

/-- A used symbol is listed where its word starts, the one R180 gives it. -/
theorem sortedSymbols_split {L : List Nat} {s : Nat} (h0 : L.getD s 0 ≠ 0) (h15 : L.getD s 0 ≤ 15) :
    ∃ xs, xs ++ [(L.getD s 0, s)] <+: sortedSymbols L ∧ mass xs = codeValue L s * 2 ^ (15 - L.getD s 0) := by
  have hs : s < L.length := by
    by_contra h
    exact h0 (List.getD_eq_default _ _ (Nat.not_lt.mp h))
  obtain ⟨k, hk⟩ : ∃ k, L.getD s 0 = k + 1 := ⟨_, (Nat.succ_pred h0).symm⟩
  have hget : L[s] = k + 1 := by rw [← hk, List.getD_eq_getElem _ _ hs]
  have hk15 : k < 15 := by omega
  rw [codeValue, hk]
  refine ⟨(List.range k).flatMap (symbolsOfLength L) ++ (symbolsFrom (k + 1) 0 (L.take s)).map fun s => (k + 1, s),
    ?_, ?_⟩
  · have hblock := (symbolsFrom_split 0 hs).map fun s => (k + 1, s)
    rw [hget, List.map_append, Nat.zero_add] at hblock
    have hrange : List.range (k + 1) <+: List.range 15 := by
      have := List.take_prefix (k + 1) (List.range 15)
      rwa [List.take_range, min_eq_left (by omega)] at this
    have hlonger := hrange.flatMap (symbolsOfLength L)
    rw [List.range_succ, List.flatMap_append, List.flatMap_singleton] at hlonger
    rw [List.append_assoc]
    exact ((List.prefix_append_right_inj _).mpr hblock).trans hlonger
  · rw [mass_append, mass_flatMap_symbolsOfLength L hk15, mass_map_mk, length_symbolsFrom, ← Nat.add_mul]

/-! ## The size of a second-level table (R186) -/

/-- `NextTableBitSize` stops at 15 bits, or at a length whose symbols and the shorter ones fill the table. -/
theorem nextTableBitSizeFrom_spec {count : List Nat} {ps : List (Nat × Nat)} {root fuel len space : Nat} {left : Int}
    (hcount : ∀ l, root < l → l ≤ 15 → count.getD l 0 = (ps.map Prod.fst).count l) (hfuel : len + fuel = 15)
    (hlen : root < len) (hspace : space ≤ left * (2 ^ (15 - len) : Nat) + massBelow ps len) :
    len ≤ nextTableBitSizeFrom count root fuel len left + root ∧
      nextTableBitSizeFrom count root fuel len left + root ≤ 15 ∧
      (nextTableBitSizeFrom count root fuel len left + root = 15 ∨
        space ≤ massBelow ps (nextTableBitSizeFrom count root fuel len left + root + 1)) := by
  induction fuel generalizing len left with
  | zero => rw [nextTableBitSizeFrom]; omega
  | succ fuel ih =>
    have hbelow := massBelow_succ ps len
    rw [← hcount len hlen (by omega)] at hbelow
    rw [nextTableBitSizeFrom]
    split
    case isTrue hfull =>
      refine ⟨by omega, by omega, .inr ?_⟩
      rw [Nat.sub_add_cancel hlen.le, hbelow]
      have := mul_le_mul_of_nonneg_right (sub_nonpos.mp hfull) (Int.natCast_nonneg (2 ^ (15 - len)))
      push_cast at this hspace ⊢
      zify
      linarith
    case isFalse hleft =>
      have hnext := ih (len := len + 1) (left := (left - count.getD len 0) * 2) (by omega) (by omega) (by
        rw [hbelow]
        rw [space_halves (l := len) (by omega)] at hspace ⊢
        push_cast at hspace ⊢
        linarith)
      exact ⟨by omega, hnext.2⟩

/-- A second-level table has room for every symbol whose word begins with the table's root index. -/
theorem nextTableBitSize_spec {count : List Nat} {ps : List (Nat × Nat)} {root len : Nat}
    (hcount : ∀ l, root < l → l ≤ 15 → count.getD l 0 = (ps.map Prod.fst).count l)
    (hsorted : ps.Pairwise (·.1 ≤ ·.1)) (hps : ∀ p ∈ ps, p.1 ≤ 15) (hlen : root < len) (hlen15 : len ≤ 15) :
    len ≤ nextTableBitSize count len root + root ∧ nextTableBitSize count len root + root ≤ 15 ∧
      ∀ zs p, zs ++ [p] <+: ps → mass zs < 2 ^ (15 - root) → p.1 ≤ nextTableBitSize count len root + root := by
  obtain ⟨hlow, hhigh, hfull⟩ := nextTableBitSizeFrom_spec (space := 2 ^ (15 - root)) (left := (2 ^ (len - root) : Nat))
    (fuel := 15 - len) hcount (by omega) hlen (by
      rw [← Nat.cast_mul, ← pow_add, show len - root + (15 - len) = 15 - root by omega]
      exact le_add_of_nonneg_right (Int.natCast_nonneg _))
  refine ⟨hlow, hhigh, fun zs p hp hroom => ?_⟩
  by_contra hlong
  have hp15 := hps p (hp.subset (by simp))
  unfold nextTableBitSize at hlong
  rcases hfull with hfull | hfull
  · omega
  · have := massBelow_le hsorted hp (Nat.succ_le_of_lt (Nat.not_le.mp hlong))
    rw [Nat.succ_eq_add_one] at this
    omega

/-! ## The entries a symbol writes (R185, R186) -/

theorem getElem?_replicateEntry_eq (base step size : Nat) (item : Entry) (k : Nat) (es : List Entry) (i : Nat) :
    (replicateEntry base step size item k es)[i]? =
      if base ≤ k + i ∧ k + i < base + size ∧ (k + i - base) % step = 0 then es[i]?.map fun _ => item else es[i]? := by
  induction es generalizing k i with
  | nil => simp [replicateEntry]
  | cons e es ih =>
    rw [replicateEntry]
    cases i with
    | zero => simp only [List.getElem?_cons_zero, Nat.add_zero, Option.map_some]; split <;> rfl
    | succ i =>
      rw [List.getElem?_cons_succ, List.getElem?_cons_succ, ih, Nat.add_assoc, Nat.add_comm 1]

section
variable {start off step size i : Nat} {item : Entry} {es : List Entry}

/-- `Replicate` in the table at `start` writes every index with the word's bits `off`. -/
theorem getElem?_replicateEntry_hit (hsize : start + size = es.length) (hi : start ≤ i) (hlt : i < es.length)
    (hoff : (i - start) % step = off) : (replicateEntry (start + off) step size item 0 es)[i]? = some item := by
  have hle : off ≤ i - start := hoff ▸ Nat.mod_le _ _
  have hmod : (i - (start + off)) % step = 0 := by
    rw [← Nat.sub_sub, ← hoff]
    exact Nat.sub_mod_eq_zero_of_mod_eq (Nat.mod_mod _ _).symm
  rw [getElem?_replicateEntry_eq, Nat.zero_add, if_pos ⟨by omega, by omega, hmod⟩, List.getElem?_eq_getElem hlt]
  rfl

/-- `Replicate` leaves the tables before `start`, and other words' indexes. -/
theorem getElem?_replicateEntry_miss (hoff : off < step) (hi : start ≤ i → (i - start) % step ≠ off) :
    (replicateEntry (start + off) step size item 0 es)[i]? = es[i]? := by
  rw [getElem?_replicateEntry_eq, Nat.zero_add, if_neg]
  rintro ⟨hle, -, hmod⟩
  refine hi (by omega) ?_
  have hsum : i - start = (i - (start + off)) + off := by omega
  rw [hsum, Nat.add_mod, hmod, Nat.zero_add, Nat.mod_mod, Nat.mod_eq_of_lt hoff]

end

/-! ## Where a word's lookup ends (R183, R190) -/

/-- A stream `v` of a word of `len` bits ends at an entry of `sym`, in the root or in a second-level table. That table is
either done, or it is the one `b` is writing. -/
inductive Lands (root : Nat) (b : Builder) (v len sym : Nat) : Prop
  | inRoot (hlen : len ≤ root) (hentry : b.entries[v % 2 ^ root]? = some (packEntry len sym))
  | inSecond (base sub : Nat) (hlen : root < len) (hsub : 1 ≤ sub) (h15 : sub + root ≤ 15) (hbase : 2 ^ root ≤ base)
      (hpointer : b.entries[v % 2 ^ root]? = some (packEntry (sub + root) (base - v % 2 ^ root)))
      (hentry : b.entries[base + v / 2 ^ root % 2 ^ sub]? = some (packEntry (len - root) sym))
      (hplace : base + 2 ^ sub ≤ b.cur ∨ b.low = some (v % 2 ^ root) ∧ base = b.cur ∧ 2 ^ sub = b.tableSize)

theorem lookup_of_lands {root : Nat} {b : Builder} {v len sym : Nat} {L : List Nat} (h : Lands root b v len sym)
    (hlen : len ≤ 15) (hsym : sym < 65536) (hsize : b.entries.length ≤ 65536) :
    HuffmanTable.lookup ⟨root, L, b.entries⟩ v = some (sym, len) := by
  rw [HuffmanTable.lookup]
  cases h with
  | inRoot hroot hentry =>
    simp only [hentry, entryLen_pack (show len < 65536 by omega) hsym, entryValue_pack (show len < 65536 by omega) hsym,
      if_pos hroot]
  | inSecond base sub hroot hsub h15 hbase hpointer hentry _ =>
    have hlow : v % 2 ^ root < 2 ^ root := Nat.mod_lt _ (Nat.two_pow_pos _)
    obtain ⟨hin, -⟩ := List.getElem?_eq_some_iff.mp hentry
    have hfield : v % 2 ^ (sub + root) / 2 ^ root = v / 2 ^ root % 2 ^ sub := by
      rw [Nat.add_comm, pow_add, Nat.mod_mul_right_div_self]
    have hindex : v % 2 ^ root + (base - v % 2 ^ root) + v / 2 ^ root % 2 ^ sub = base + v / 2 ^ root % 2 ^ sub := by
      omega
    have hpl := entryLen_pack (len := sub + root) (value := base - v % 2 ^ root) (by omega) (by omega)
    have hpv := entryValue_pack (len := sub + root) (value := base - v % 2 ^ root) (by omega) (by omega)
    have hpast : ¬ sub + root ≤ root := by omega
    simp only [hpointer, hpl, hpv, if_neg hpast, hfield, hindex, hentry,
      entryLen_pack (show len - root < 65536 by omega) hsym, entryValue_pack (show len - root < 65536 by omega) hsym]
    congr 2
    omega

/-- A stream begins with the word `w` when its root index and its second-level index say so. -/
theorem mod_eq_iff_indexes {root sub l v w : Nat} (hroot : root ≤ l) (hl : l ≤ sub + root) :
    v % 2 ^ l = w ↔ v % 2 ^ root = w % 2 ^ root ∧ v / 2 ^ root % 2 ^ sub % 2 ^ (l - root) = w / 2 ^ root := by
  have hupper : v / 2 ^ root % 2 ^ sub % 2 ^ (l - root) = v % 2 ^ l / 2 ^ root := by
    rw [Nat.mod_mod_of_dvd _ (pow_dvd_pow 2 (by omega)), ← Nat.mod_mul_right_div_self, ← pow_add,
      Nat.add_sub_cancel' hroot]
  have hlower : v % 2 ^ l % 2 ^ root = v % 2 ^ root := Nat.mod_mod_of_dvd v (pow_dvd_pow 2 hroot)
  rw [hupper, ← hlower]
  constructor
  · rintro rfl
    exact ⟨rfl, rfl⟩
  · rintro ⟨hlow, hup⟩
    rw [← Nat.div_add_mod (v % 2 ^ l) (2 ^ root), hup, hlow, Nat.div_add_mod]

/-! ## The builder's invariant (R185)

Positions in the code space, in units of 2^-15, order the words as they are listed: a symbol's word is the one at the mass of
the symbols before it, the builder's key is that position's bits reversed, and a root index is a run of 2^(15 - root)
positions. So the words under one root index are listed one after the other, and their table is written as a whole. -/

/-- A list of used symbols as R180 and R181 ask for: shorter words first, and no more code space than there is. -/
structure CodeList (ps : List (Nat × Nat)) : Prop where
  sorted : ps.Pairwise (·.1 ≤ ·.1)
  length_pos : ∀ p ∈ ps, 1 ≤ p.1
  length_le : ∀ p ∈ ps, p.1 ≤ 15
  mass_le : mass ps ≤ 2 ^ 15

/-- The second-level table at root index `low` is the one being written: it was begun at position `start`, and has room for
all that still begins with `low`. -/
structure OpenTable (root : Nat) (done rest : List (Nat × Nat)) (b : Builder) (low start sub : Nat) : Prop where
  low_eq : low = wordAt start root
  start_le : start ≤ mass done
  start_lt : start < 2 ^ 15
  latest : ∀ xs p, xs ++ [p] <+: done → mass xs / 2 ^ (15 - root) ≤ start / 2 ^ (15 - root)
  sub_pos : 1 ≤ sub
  sub_le : sub + root ≤ 15
  tableSize : b.tableSize = 2 ^ sub
  root_le : 2 ^ root ≤ b.cur
  pointer : b.entries[low]? = some (packEntry (sub + root) (b.cur - low))
  room : ∀ zs p, zs ++ [p] <+: rest → (mass done + mass zs) / 2 ^ (15 - root) = start / 2 ^ (15 - root) → p.1 ≤ sub + root
  entries_le : b.entries.length ≤ 2 ^ root + (start / 2 ^ (15 - root) + 1) * 2 ^ (15 - root)
  long : ∀ p ∈ rest, root < p.1

/-- The builder after the symbols `done`, before `rest`. -/
structure Built (root : Nat) (done rest : List (Nat × Nat)) (b : Builder) : Prop where
  key : mass done < 2 ^ 15 → b.key = wordAt (mass done) 15
  count_length : b.count.length = 16
  count : ∀ l, root < l → l ≤ 15 → b.count.getD l 0 = (rest.map Prod.fst).count l
  size : b.cur + b.tableSize = b.entries.length
  reads : ∀ xs p, xs ++ [p] <+: done → ∀ v, v % 2 ^ p.1 = wordAt (mass xs) p.1 → Lands root b v p.1 p.2
  stage : (b.low = none ∧ b.cur = 0 ∧ b.tableSize = 2 ^ root ∧ ∀ p ∈ done, p.1 ≤ root) ∨
    ∃ low start sub, b.low = some low ∧ OpenTable root done rest b low start sub

/-- The first part of `addLong`: a new table at the key's root index (R185). -/
def openTable (root : Nat) (b : Builder) (len : Nat) : Builder :=
  let low := b.key % 2 ^ root
  let subBits := nextTableBitSize b.count len root
  { b with
    entries := (b.entries ++ List.replicate (2 ^ subBits) 0).set low
      (packEntry (subBits + root) (b.cur + b.tableSize - low))
    low := some low
    cur := b.cur + b.tableSize
    tableSize := 2 ^ subBits }

/-- The second part of `addLong`: the symbol's entries in the open table (R185). -/
def writeLong (root : Nat) (b : Builder) (len sym : Nat) : Builder :=
  { b with
    entries := replicateEntry (b.cur + b.key / 2 ^ root) (2 ^ (len - root)) b.tableSize
      (packEntry (len - root) sym) 0 b.entries
    key := nextKey b.key len
    count := b.count.set len (b.count.getD len 0 - 1) }

theorem addLong_eq (root : Nat) (b : Builder) (len sym : Nat) :
    addLong root b len sym =
      writeLong root (if b.low = some (b.key % 2 ^ root) then b else openTable root b len) len sym := rfl

section
variable {root : Nat} {done rest : List (Nat × Nat)} {p : Nat × Nat} {b : Builder}

/-- After one more symbol, a fact of every word done is one of every word before and of the new one. -/
theorem forall_prefix_concat {Q : List (Nat × Nat) → Nat × Nat → Prop}
    (hold : ∀ xs q, xs ++ [q] <+: done → Q xs q) (hnew : Q done p) : ∀ xs q, xs ++ [q] <+: done ++ [p] → Q xs q := by
  intro xs q h
  rcases List.prefix_concat_iff.mp h with heq | h
  · obtain ⟨rfl, hq⟩ := List.append_inj' heq rfl
    cases hq
    exact hnew
  · exact hold xs q h

variable (hcode : CodeList (done ++ p :: rest)) (hroot : root ≤ 15) (hb : Built root done (p :: rest) b)

section
include hcode

theorem length_of_done : ∀ q ∈ done, q.1 ≤ p.1 := fun q hq =>
  (List.pairwise_append.mp hcode.sorted).2.2 q hq p List.mem_cons_self

theorem length_of_rest : ∀ q ∈ p :: rest, p.1 ≤ q.1 := by
  intro q hq
  rcases List.mem_cons.mp hq with rfl | hq
  · exact le_rfl
  · exact List.rel_of_pairwise_cons (List.pairwise_append.mp hcode.sorted).2.1 hq

theorem length_bounds : 1 ≤ p.1 ∧ p.1 ≤ 15 :=
  ⟨hcode.length_pos p (by simp), hcode.length_le p (by simp)⟩

theorem mass_done_add_le : mass done + 2 ^ (15 - p.1) ≤ 2 ^ 15 := by
  have := hcode.mass_le
  rw [mass_append, mass_cons] at this
  omega

theorem mass_done_lt : mass done < 2 ^ 15 := by
  have := mass_done_add_le hcode
  have := Nat.two_pow_pos (15 - p.1)
  omega

theorem dvd_mass_done : 2 ^ (15 - p.1) ∣ mass done := dvd_mass (length_of_done hcode)

/-- A stream with a word of `done` has none of the words that follow. -/
theorem word_done_ne {xs : List (Nat × Nat)} {q : Nat × Nat} {v l : Nat} (hq : xs ++ [q] <+: done)
    (hv : v % 2 ^ q.1 = wordAt (mass xs) q.1) (hl : q.1 ≤ l) (h15 : l ≤ 15) : v % 2 ^ l ≠ wordAt (mass done) l :=
  wordAt_disjoint hl h15 (mass_done_lt hcode) (mass_add_le_of_prefix hq) hv

include hb

theorem key_eq : b.key = wordAt (mass done) p.1 :=
  (hb.key (mass_done_lt hcode)).trans (wordAt_of_dvd (length_bounds hcode).2 (dvd_mass_done hcode))

theorem key_mod {l : Nat} (hl : l ≤ 15) : b.key % 2 ^ l = wordAt (mass done) l := by
  rw [hb.key (mass_done_lt hcode), wordAt_mod _ hl le_rfl]

theorem nextKey_key (h : mass (done ++ [p]) < 2 ^ 15) : nextKey b.key p.1 = wordAt (mass (done ++ [p])) 15 := by
  have hmass : mass (done ++ [p]) = mass done + 2 ^ (15 - p.1) := by simp
  rw [hmass] at h ⊢
  rw [hb.key (mass_done_lt hcode), nextKey_wordAt (length_bounds hcode).2 (dvd_mass_done hcode) h]

end

include hcode hb

/-- A symbol no longer than the root index (R185, first loop). -/
theorem built_addShort (hshort : p.1 ≤ root) : Built root (done ++ [p]) rest (addShort b p.1 p.2) := by
  have hkey := key_eq hcode hb
  have hkeylt : b.key < 2 ^ p.1 := hkey ▸ wordAt_lt _ _
  rcases hb.stage with ⟨hlow, hcur, htable, hdone⟩ | ⟨low, start, sub, -, ho⟩
  case inr => exact absurd (ho.long p List.mem_cons_self) (by omega)
  have hentries (i : Nat) (item : Entry) := getElem?_replicateEntry_miss (start := 0) (size := b.tableSize) (i := i)
    (item := item) (es := b.entries) hkeylt
  have hsize : 0 + b.tableSize = b.entries.length := hcur ▸ hb.size
  have hindex (v : Nat) : v % 2 ^ root % 2 ^ p.1 = v % 2 ^ p.1 := Nat.mod_mod_of_dvd _ (pow_dvd_pow 2 hshort)
  simp only [Nat.zero_add, Nat.sub_zero] at hentries
  refine ⟨nextKey_key hcode hb, hb.count_length, fun l hl h15 => ?count, ?size, forall_prefix_concat ?old ?new,
    .inl ⟨hlow, hcur, htable, ?lengths⟩⟩
  case count =>
    rw [addShort, hb.count l hl h15, List.map_cons, List.count_cons_of_ne (by omega)]
  case size => simpa [addShort, length_replicateEntry] using hb.size
  case old =>
    intro xs q hq v hv
    have hqdone : q ∈ done := hq.subset (by simp)
    have hne := word_done_ne hcode hq hv (length_of_done hcode q hqdone) (length_bounds hcode).2
    cases hb.reads xs q hq v hv with
    | inRoot hlen hentry =>
      refine .inRoot hlen ?_
      rw [addShort, hentries _ _ fun _ => by rwa [hindex, hkey]]
      exact hentry
    | inSecond _ _ hlen => exact absurd (hdone q hqdone) (by omega)
  case new =>
    intro v hv
    refine .inRoot hshort ?_
    have hlt : v % 2 ^ root < b.entries.length := by
      rw [← hsize, htable, Nat.zero_add]
      exact Nat.mod_lt _ (Nat.two_pow_pos _)
    have hhit := getElem?_replicateEntry_hit (start := 0) (off := b.key) (step := 2 ^ p.1) (item := packEntry p.1 p.2) hsize
      (Nat.zero_le _) hlt (by rw [Nat.sub_zero, hindex, hv, hkey])
    rwa [Nat.zero_add] at hhit
  case lengths =>
    intro q hq
    rcases List.mem_append.mp hq with hq | hq
    · exact hdone q hq
    · rw [List.mem_singleton.mp hq]
      exact hshort

include hroot

/-- With its root index open, a symbol lies in the open table and fits it. -/
theorem exists_openTable (hopen : b.low = some (b.key % 2 ^ root)) :
    ∃ start sub, OpenTable root done (p :: rest) b (b.key % 2 ^ root) start sub ∧
      mass done / 2 ^ (15 - root) = start / 2 ^ (15 - root) ∧ p.1 ≤ sub + root := by
  rcases hb.stage with ⟨hnone, -⟩ | ⟨low, start, sub, hlow, ho⟩
  case inl => rw [hnone] at hopen; cases hopen
  obtain rfl : b.key % 2 ^ root = low := Option.some.inj (hopen.symm.trans hlow)
  have hstart : mass done / 2 ^ (15 - root) = start / 2 ^ (15 - root) :=
    (wordAt_eq_iff hroot (mass_done_lt hcode) ho.start_lt).mp
      ((key_mod hcode hb hroot).symm.trans ho.low_eq)
  exact ⟨start, sub, ho, hstart, ho.room [] p (by simp) (by simpa using hstart)⟩

omit hroot

omit hcode in
theorem count_writeLong {l : Nat} (hl : root < l) (h15 : l ≤ 15) :
    (writeLong root b p.1 p.2).count.getD l 0 = (rest.map Prod.fst).count l := by
  have hcount := hb.count l hl h15
  rw [List.map_cons, List.count_cons] at hcount
  rw [writeLong, List.getD_eq_getElem?_getD, List.getElem?_set]
  split
  · subst ‹p.1 = l›
    rw [if_pos (by rw [hb.count_length]; omega), Option.getD_some, hcount]
    simp
  · rw [← List.getD_eq_getElem?_getD, hcount]
    simp [‹¬ p.1 = l›]

/-- The tables before the open one stay. -/
theorem writeLong_getElem? (hlong : root < p.1) {i : Nat} (hi : b.cur ≤ i →
    (i - b.cur) % 2 ^ (p.1 - root) ≠ b.key / 2 ^ root) : (writeLong root b p.1 p.2).entries[i]? = b.entries[i]? := by
  refine getElem?_replicateEntry_miss ?_ hi
  rw [Nat.div_lt_iff_lt_mul (Nat.two_pow_pos _), ← pow_add, Nat.sub_add_cancel hlong.le, key_eq hcode hb]
  exact wordAt_lt _ _

section
variable {start sub : Nat} (ho : OpenTable root done (p :: rest) b (b.key % 2 ^ root) start sub)
  (hlong : root < p.1) (hfits : p.1 ≤ sub + root) (hopen : b.low = some (b.key % 2 ^ root))
include hlong ho

theorem writeLong_rootEntry (v : Nat) :
    (writeLong root b p.1 p.2).entries[v % 2 ^ root]? = b.entries[v % 2 ^ root]? :=
  writeLong_getElem? hcode hb hlong fun h =>
    absurd ((Nat.mod_lt _ (Nat.two_pow_pos _)).trans_le ho.root_le) h.not_gt

include hfits hopen

/-- The words done keep their entries: they differ from the new one. -/
theorem lands_writeLong_of_ne {v len sym : Nat} (h : Lands root b v len sym)
    (hne : v % 2 ^ p.1 ≠ wordAt (mass done) p.1) : Lands root (writeLong root b p.1 p.2) v len sym := by
  have hrootEntry := writeLong_rootEntry hcode hb ho hlong v
  cases h with
  | inRoot hlen hentry => exact .inRoot hlen (hrootEntry.trans hentry)
  | inSecond base sub' hlen hsub h15 hbase hpointer hentry hplace =>
    refine .inSecond base sub' hlen hsub h15 hbase (hrootEntry.trans hpointer)
      ((writeLong_getElem? hcode hb hlong fun hcur => ?_).trans hentry) hplace
    have hindex : v / 2 ^ root % 2 ^ sub' < 2 ^ sub' := Nat.mod_lt _ (Nat.two_pow_pos _)
    rcases hplace with hdone | ⟨hlow, rfl, htable⟩
    · omega
    · rw [Nat.add_sub_cancel_left, htable, ho.tableSize]
      intro hoff
      rw [← key_eq hcode hb] at hne
      refine hne ((mod_eq_iff_indexes hlong.le hfits).mpr ⟨?_, hoff⟩)
      exact (Option.some.inj (hopen.symm.trans hlow)).symm

theorem lands_writeLong {v : Nat} (hv : v % 2 ^ p.1 = wordAt (mass done) p.1) :
    Lands root (writeLong root b p.1 p.2) v p.1 p.2 := by
  have hsize := hb.size
  rw [← key_eq hcode hb] at hv
  obtain ⟨hlow, hoff⟩ := (mod_eq_iff_indexes hlong.le hfits).mp hv
  refine .inSecond b.cur sub hlong ho.sub_pos ho.sub_le ho.root_le ?_ ?_ (.inr ⟨?_, rfl, ho.tableSize.symm⟩)
  · rw [writeLong_rootEntry hcode hb ho hlong, hlow]
    exact ho.pointer
  · refine getElem?_replicateEntry_hit hsize (Nat.le_add_right _ _) ?_ ?_
    · rw [← hsize, ho.tableSize]
      exact Nat.add_lt_add_left (Nat.mod_lt _ (Nat.two_pow_pos _)) _
    · rw [Nat.add_sub_cancel_left, hoff]
  · rw [hlow]
    exact hopen

end

include hroot

/-- A symbol whose root index is that of the open table (R185, second loop). -/
theorem built_writeLong (hlong : root < p.1) (hopen : b.low = some (b.key % 2 ^ root)) :
    Built root (done ++ [p]) rest (writeLong root b p.1 p.2) := by
  obtain ⟨start, sub, ho, hstart, hfits⟩ := exists_openTable hcode hroot hb hopen
  have h15 := (length_bounds hcode).2
  have hmass : mass (done ++ [p]) = mass done + 2 ^ (15 - p.1) := by simp
  refine ⟨nextKey_key hcode hb, by simpa [writeLong] using hb.count_length, fun l => count_writeLong hb,
    by simpa [writeLong, length_replicateEntry] using hb.size, forall_prefix_concat ?old ?new,
    .inr ⟨_, start, sub, hopen, ?table⟩⟩
  case old =>
    intro xs q hq v hv
    have hlen := length_of_done hcode q (hq.subset (by simp))
    exact lands_writeLong_of_ne hcode hb ho hlong hfits hopen (hb.reads xs q hq v hv) (word_done_ne hcode hq hv hlen h15)
  case new => exact fun v hv => lands_writeLong hcode hb ho hlong hfits hopen hv
  case table =>
    exact {
      low_eq := ho.low_eq
      start_le := by rw [hmass]; exact ho.start_le.trans (Nat.le_add_right _ _)
      start_lt := ho.start_lt
      latest := forall_prefix_concat ho.latest hstart.le
      sub_pos := ho.sub_pos
      sub_le := ho.sub_le
      tableSize := ho.tableSize
      root_le := ho.root_le
      pointer := (writeLong_rootEntry hcode hb ho hlong b.key).trans ho.pointer
      room := fun zs q hq hsame => ho.room (p :: zs) q ((List.prefix_cons_inj p).mpr hq) (by
        rwa [mass_cons, ← Nat.add_assoc, ← hmass])
      entries_le := (length_replicateEntry ..).trans_le ho.entries_le
      long := fun q hq => ho.long q (List.mem_cons_of_mem p hq) }

/-- With a new root index, the words done that are longer than the root stand under smaller ones, and the tables written
take no more room than those indexes do. -/
theorem stage_of_new (hnew : b.low ≠ some (b.key % 2 ^ root)) :
    2 ^ root ≤ b.entries.length ∧
      b.entries.length ≤ 2 ^ root + mass done / 2 ^ (15 - root) * 2 ^ (15 - root) ∧
      ∀ xs q, xs ++ [q] <+: done → root < q.1 → mass xs / 2 ^ (15 - root) < mass done / 2 ^ (15 - root) := by
  rw [← hb.size]
  rcases hb.stage with ⟨-, hcur, htable, hdone⟩ | ⟨low, start, sub, hlow, ho⟩
  · rw [hcur, htable, Nat.zero_add]
    refine ⟨le_rfl, Nat.le_add_right _ _, fun xs q hq hlong => ?_⟩
    exact absurd (hdone q (hq.subset (by simp))) hlong.not_ge
  · have hlt : start / 2 ^ (15 - root) < mass done / 2 ^ (15 - root) := by
      refine lt_of_le_of_ne (Nat.div_le_div_right ho.start_le) fun hsame => hnew ?_
      rw [hlow, ho.low_eq, key_mod hcode hb hroot,
        (wordAt_eq_iff hroot ho.start_lt (mass_done_lt hcode)).mpr hsame]
    refine ⟨ho.root_le.trans (Nat.le_add_right _ _), ?_, fun xs q hq _ => (ho.latest xs q hq).trans_lt hlt⟩
    rw [hb.size]
    exact ho.entries_le.trans (Nat.add_le_add_left (Nat.mul_le_mul_right _ hlt) _)

omit hcode hroot hb in
/-- The words done keep their entries, their root index not being the new table's. -/
theorem lands_openTable {v len len' sym : Nat} (hsize : b.cur + b.tableSize = b.entries.length)
    (h : Lands root b v len sym) (hne : v % 2 ^ root ≠ b.key % 2 ^ root) :
    Lands root (openTable root b len') v len sym := by
  have hkeep {i : Nat} {e : Entry} (he : b.entries[i]? = some e) (hi : i ≠ b.key % 2 ^ root) :
      (openTable root b len').entries[i]? = some e := by
    obtain ⟨hlt, -⟩ := List.getElem?_eq_some_iff.mp he
    rw [openTable, List.getElem?_set_ne hi.symm, List.getElem?_append_left hlt, he]
  cases h with
  | inRoot hlen hentry => exact .inRoot hlen (hkeep hentry hne)
  | inSecond base sub hlen hsub h15 hbase hpointer hentry hplace =>
    have hlow : b.key % 2 ^ root < 2 ^ root := Nat.mod_lt _ (Nat.two_pow_pos _)
    refine .inSecond base sub hlen hsub h15 hbase (hkeep hpointer hne) (hkeep hentry (by omega)) (.inl ?_)
    show base + 2 ^ sub ≤ b.cur + b.tableSize
    rcases hplace with hdone | ⟨-, rfl, htable⟩ <;> omega

/-- A symbol with a new root index: the table before is done, and the new one begins at the key's position (R185). -/
theorem built_openTable (hlong : root < p.1) (hnew : b.low ≠ some (b.key % 2 ^ root)) :
    Built root done (p :: rest) (openTable root b p.1) := by
  obtain ⟨h1, h15⟩ := length_bounds hcode
  obtain ⟨hsizeLow, hsizeHigh, hroom⟩ := nextTableBitSize_spec hb.count (List.pairwise_append.mp hcode.sorted).2.1
    (fun q hq => hcode.length_le q (List.mem_append_right _ hq)) hlong h15
  obtain ⟨hrootLe, hentriesLe, hlater⟩ := stage_of_new hcode hroot hb hnew
  have hlow : b.key % 2 ^ root < 2 ^ root := Nat.mod_lt _ (Nat.two_pow_pos _)
  have hlength : (openTable root b p.1).entries.length = b.entries.length + 2 ^ nextTableBitSize b.count p.1 root := by
    simp [openTable]
  have hpow : 2 ^ nextTableBitSize b.count p.1 root ≤ 2 ^ (15 - root) := Nat.pow_le_pow_right Nat.two_pos (by omega)
  refine ⟨hb.key, hb.count_length, hb.count, ?size, fun xs q hq v hv => ?reads,
    .inr ⟨b.key % 2 ^ root, mass done, nextTableBitSize b.count p.1 root, rfl, ?table⟩⟩
  case size => rw [hlength, ← hb.size]; rfl
  case reads =>
    refine lands_openTable hb.size (hb.reads xs q hq v hv) fun hsame => ?_
    rw [key_mod hcode hb hroot] at hsame
    rcases Nat.lt_or_ge root q.1 with hqlong | hqshort
    · rw [← Nat.mod_mod_of_dvd v (pow_dvd_pow 2 hqlong.le), hv, wordAt_mod _ hqlong.le (hcode.length_le q
        (List.mem_append_left _ (hq.subset (by simp))))] at hsame
      have hxs := (Nat.le_add_right _ _).trans_lt ((mass_add_le_of_prefix hq).trans_lt (mass_done_lt hcode))
      exact (hlater xs q hq hqlong).ne ((wordAt_eq_iff hroot hxs (mass_done_lt hcode)).mp hsame)
    · exact word_done_ne hcode hq hv hqshort hroot hsame
  case table =>
    exact {
      low_eq := key_mod hcode hb hroot
      start_le := le_rfl
      start_lt := mass_done_lt hcode
      latest := fun xs q hq => Nat.div_le_div_right ((Nat.le_add_right _ _).trans (mass_add_le_of_prefix hq))
      sub_pos := by omega
      sub_le := hsizeHigh
      tableSize := rfl
      root_le := hrootLe.trans_eq hb.size.symm
      pointer := List.getElem?_set_self (by rw [List.length_append]; omega)
      room := fun zs q hq hsame => hroom zs q hq (by
        by_contra hover
        have := Nat.div_le_div_right (c := 2 ^ (15 - root)) (Nat.add_le_add_left (Nat.not_lt.mp hover) (mass done))
        rw [Nat.add_div_right _ (Nat.two_pow_pos _)] at this
        omega)
      entries_le := by
        rw [hlength, Nat.add_mul, Nat.one_mul, ← Nat.add_assoc]
        exact Nat.add_le_add hentriesLe hpow
      long := fun q hq => hlong.trans_le (length_of_rest hcode q hq) }

theorem built_addSymbol : Built root (done ++ [p]) rest (addSymbol root b p) := by
  rw [addSymbol]
  split
  case isTrue hshort => exact built_addShort hcode hb hshort
  case isFalse hlong =>
    rw [Nat.not_le] at hlong
    rw [addLong_eq]
    split
    case isTrue hopen => exact built_writeLong hcode hroot hb hlong hopen
    case isFalse hnew => exact built_writeLong hcode hroot (built_openTable hcode hroot hb hlong hnew) hlong rfl

end

/-- The builder before the first symbol (R185). -/
def initialBuilder (root : Nat) (L : List Nat) : Builder :=
  { entries := List.replicate (2 ^ root) 0
    key := 0
    low := none
    cur := 0
    tableSize := 2 ^ root
    count := (List.range 16).map L.count }

theorem built_initialBuilder (root : Nat) (L : List Nat) : Built root [] (sortedSymbols L) (initialBuilder root L) where
  key := fun _ => (by decide : 0 = wordAt 0 15)
  count_length := by simp [initialBuilder]
  count := fun l hl h15 => by
    rw [count_sortedSymbols (by omega) h15, initialBuilder, List.getD_eq_getElem _ _ (by simp; omega)]
    simp
  size := by simp [initialBuilder]
  reads := fun xs p h => absurd h (by simp)
  stage := .inl ⟨rfl, rfl, rfl, by simp⟩

theorem built_foldl {root : Nat} (hroot : root ≤ 15) {done rest : List (Nat × Nat)} {b : Builder}
    (hcode : CodeList (done ++ rest)) (hb : Built root done rest b) :
    Built root (done ++ rest) [] (rest.foldl (addSymbol root) b) := by
  induction rest generalizing done b with
  | nil => simpa using hb
  | cons p rest ih =>
    have := ih (by simpa using hcode) (built_addSymbol hcode hroot hb)
    simpa using this

/-- The table has no more entries than an entry's 16-bit value can name (R183). -/
theorem entries_length_le {root : Nat} (hroot : root ≤ 15) {done rest : List (Nat × Nat)} {b : Builder}
    (hb : Built root done rest b) : b.entries.length ≤ 65536 := by
  have hpow : 2 ^ root ≤ 2 ^ 15 := Nat.pow_le_pow_right Nat.two_pos hroot
  rcases hb.stage with ⟨-, hcur, htable, -⟩ | ⟨low, start, sub, -, ho⟩
  · rw [← hb.size, hcur, htable]
    omega
  · have hstart : start / 2 ^ (15 - root) < 2 ^ root := by
      rw [Nat.div_lt_iff_lt_mul (Nat.two_pow_pos _), ← pow_add, Nat.add_sub_cancel' hroot]
      exact ho.start_lt
    have hspace := Nat.mul_le_mul_right (2 ^ (15 - root)) (Nat.succ_le_of_lt hstart)
    rw [← pow_add, Nat.add_sub_cancel' hroot, Nat.succ_eq_add_one] at hspace
    have := ho.entries_le
    omega

/-! ## The table reads its code (R185, R187, R190) -/

section
variable {L : List Nat} {rootBits s : Nat} (hL : ∀ l ∈ L, l ≤ 15) (hs : L.getD s 0 ≠ 0)
include hL

theorem codeList_sortedSymbols (hmass : kraftSum L ≤ 2 ^ 15) : CodeList (sortedSymbols L) where
  sorted := sortedSymbols_pairwise L
  length_pos := fun _ hp => (mem_sortedSymbols hp).1
  length_le := fun _ hp => (mem_sortedSymbols hp).2.1
  mass_le := by rwa [mass_sortedSymbols hL]

theorem built_sortedSymbols (hmass : kraftSum L ≤ 2 ^ 15) (hroot : rootBits ≤ 15) :
    Built rootBits (sortedSymbols L) [] ((sortedSymbols L).foldl (addSymbol rootBits) (initialBuilder rootBits L)) :=
  built_foldl (done := []) hroot (codeList_sortedSymbols hL hmass) (built_initialBuilder rootBits L)

theorem length_le_of_getD (s : Nat) : L.getD s 0 ≤ 15 := by
  rcases Nat.lt_or_ge s L.length with h | h
  · rw [List.getD_eq_getElem _ _ h]
    exact hL _ (List.getElem_mem h)
  · rw [List.getD_eq_default _ _ h]
    exact Nat.zero_le _

include hs

/-- A one-symbol code fills the root with its symbol at 0 bits (R187). -/
theorem lookup_build_oneSymbol (hlen : L.length ≤ 65536) (hone : usedSymbols L = 1) (v : Nat) :
    (HuffmanTable.build L rootBits).lookup v = some (s, 0) := by
  rw [← length_sortedSymbols_eq hL] at hone
  obtain ⟨⟨l, s'⟩, hsingle⟩ := List.length_eq_one_iff.mp hone
  obtain ⟨xs, hsplit, -⟩ := sortedSymbols_split hs (length_le_of_getD hL s)
  have hmem : (L.getD s 0, s) ∈ sortedSymbols L := hsplit.subset (by simp)
  have hsym := (mem_sortedSymbols hmem).2.2
  rw [hsingle, List.mem_singleton] at hmem
  obtain ⟨-, rfl⟩ := Prod.mk.inj hmem
  have hentries : buildEntries L rootBits = List.replicate (2 ^ rootBits) (packEntry 0 s) := by
    rw [buildEntries, hsingle]
  have hindex : v % 2 ^ rootBits < 2 ^ rootBits := Nat.mod_lt _ (Nat.two_pow_pos _)
  simp only [HuffmanTable.lookup, HuffmanTable.build, hentries, List.getElem?_replicate, if_pos hindex,
    entryLen_pack (show 0 < 65536 by omega) (hsym.trans_le hlen), if_pos (Nat.zero_le rootBits),
    entryValue_pack (show 0 < 65536 by omega) (hsym.trans_le hlen)]

/-- A complete code's words are read from the table (R185, R190). -/
theorem lookup_build_complete (hlen : L.length ≤ 65536) (hroot : rootBits ≤ 15) (hcomplete : kraftSum L = 2 ^ 15)
    {v : Nat} (hv : v % 2 ^ L.getD s 0 = reverseBits (L.getD s 0) (codeValue L s)) :
    (HuffmanTable.build L rootBits).lookup v = some (s, L.getD s 0) := by
  obtain ⟨xs, hsplit, hmass⟩ := sortedSymbols_split hs (length_le_of_getD hL s)
  have hb := built_sortedSymbols hL hcomplete.le hroot
  have hsym := (mem_sortedSymbols (hsplit.subset (by simp : (L.getD s 0, s) ∈ _))).2.2
  have hword : wordAt (mass xs) (L.getD s 0) = reverseBits (L.getD s 0) (codeValue L s) := by
    rw [wordAt, hmass, Nat.mul_div_cancel _ (Nat.two_pow_pos _)]
  have hlookup := lookup_of_lands (L := L) (hb.reads xs _ hsplit v (hv.trans hword.symm)) (length_le_of_getD hL s)
    (hsym.trans_le hlen) (entries_length_le hroot hb)
  rw [HuffmanTable.build, buildEntries]
  split
  case h_1 l s' hsingle =>
    have hspace := mass_sortedSymbols hL
    have hpos := (mem_sortedSymbols (hsingle ▸ List.mem_singleton_self (l, s'))).1
    rw [hsingle, hcomplete, mass_cons, mass_nil, Nat.add_zero] at hspace
    have := Nat.pow_right_injective le_rfl hspace
    omega
  case h_2 => exact hlookup

end

/-- Settles O31: the builder's invariant, kept by every symbol of a code whose words are no more than there is room for. -/
theorem tableReadsItsCode : Obligations.TableReadsItsCode := by
  intro L rootBits hroot hlen hL hcode s w n hword
  have hrootLe : rootBits ≤ 15 := by rcases hroot with rfl | rfl <;> decide
  have hword' : codeWord L s = some (w, n) := hword
  unfold codeWord at hword'
  split at hword'
  case isTrue => cases hword'
  case isFalse hs =>
    split at hword'
    case isTrue hone =>
      cases hword'
      exact ⟨by omega, by omega, fun v _ _ => lookup_build_oneSymbol hL hs (by omega) hone v⟩
    case isFalse hmany =>
      cases hword'
      have hcomplete : kraftSum L = 2 ^ 15 := by
        have := hcode.resolve_right hmany
        simp only [completeCode, Bool.and_eq_true, decide_eq_true_eq] at this
        exact this.1
      exact ⟨length_le_of_getD hL s, reverseBits_lt _ _, fun v _ hv =>
        lookup_build_complete hL hs (by omega) hrootLe hcomplete hv⟩

/-! ## The simple form's lengths (R181, R194) -/

/-- The length array with the pairs' lengths written at their symbols. -/
def assignLengths (ps : List (Nat × Nat)) (L : List Nat) : List Nat := ps.foldl (fun L p => L.set p.1 p.2) L

/-- The lengths of a simple form's symbols, in the order listed (R194). -/
def IsSimpleForm (symbols : List Nat) (a : Bool) (lens : List Nat) : Prop :=
  symbols.length = 1 ∧ lens = [1] ∨ symbols.length = 2 ∧ lens = [1, 1] ∨ symbols.length = 3 ∧ lens = [1, 2, 2] ∨
    symbols.length = 4 ∧ lens = if a then [1, 2, 3, 3] else [2, 2, 2, 2]

theorem getD_assignLengths_of_notMem {ps : List (Nat × Nat)} {L : List Nat} {x : Nat} (h : x ∉ ps.map Prod.fst) :
    (assignLengths ps L).getD x 0 = L.getD x 0 := by
  induction ps generalizing L with
  | nil => rfl
  | cons p ps ih =>
    rw [List.map_cons, List.mem_cons, not_or] at h
    rw [assignLengths, List.foldl_cons, ← assignLengths, ih h.2]
    simp only [List.getD_eq_getElem?_getD, List.getElem?_set_ne (Ne.symm h.1)]

theorem getD_assignLengths_of_mem {ps : List (Nat × Nat)} {L : List Nat} {p : Nat × Nat}
    (hnodup : (ps.map Prod.fst).Nodup) (hlt : ∀ q ∈ ps, q.1 < L.length) (hp : p ∈ ps) :
    (assignLengths ps L).getD p.1 0 = p.2 := by
  induction ps generalizing L with
  | nil => cases hp
  | cons q ps ih =>
    rw [List.map_cons, List.nodup_cons] at hnodup
    rw [assignLengths, List.foldl_cons, ← assignLengths]
    rcases List.mem_cons.mp hp with rfl | hp
    · rw [getD_assignLengths_of_notMem hnodup.1, List.getD_eq_getElem?_getD,
        List.getElem?_set_self (hlt p List.mem_cons_self)]
      rfl
    · exact ih hnodup.2 (fun r hr => by rw [List.length_set]; exact hlt r (List.mem_cons_of_mem q hr)) hp

/-- A symbol that gets a length adds it to the lengths in use. -/
theorem filter_set_perm {L : List Nat} {x l : Nat} (hx : x < L.length) (h0 : L.getD x 0 = 0) (hl : l ≠ 0) :
    ((L.set x l).filter (· ≠ 0)).Perm (l :: L.filter (· ≠ 0)) := by
  rw [List.getD_eq_getElem _ _ hx] at h0
  have hset := (List.set_perm_cons_eraseIdx hx l).filter (· ≠ 0)
  have herase := (List.getElem_cons_eraseIdx_perm hx).filter (· ≠ 0)
  rw [List.filter_cons_of_pos (by simpa using hl)] at hset
  rw [List.filter_cons_of_neg (by simpa using h0)] at herase
  exact hset.trans (herase.cons l)

theorem filter_assignLengths_perm {ps : List (Nat × Nat)} {L : List Nat} (hnodup : (ps.map Prod.fst).Nodup)
    (hlt : ∀ q ∈ ps, q.1 < L.length) (h0 : ∀ q ∈ ps, L.getD q.1 0 = 0) (hne : ∀ q ∈ ps, q.2 ≠ 0) :
    ((assignLengths ps L).filter (· ≠ 0)).Perm (ps.map Prod.snd ++ L.filter (· ≠ 0)) := by
  induction ps generalizing L with
  | nil => exact .refl _
  | cons p ps ih =>
    rw [List.map_cons, List.nodup_cons] at hnodup
    have hp := List.mem_cons_self (a := p) (l := ps)
    have hset := filter_set_perm (hlt p hp) (h0 p hp) (hne p hp)
    have hrest := ih (L := L.set p.1 p.2) hnodup.2 (by simpa using fun a b h => hlt _ (List.mem_cons_of_mem p h))
      (fun q hq => by
        have hother : p.1 ≠ q.1 := fun e => hnodup.1 (e ▸ List.mem_map_of_mem hq)
        rw [List.getD_eq_getElem?_getD, List.getElem?_set_ne hother, ← List.getD_eq_getElem?_getD]
        exact h0 q (List.mem_cons_of_mem p hq))
      fun q hq => hne q (List.mem_cons_of_mem p hq)
    exact (hrest.trans (hset.append_left _)).trans List.perm_middle

section
variable {symbols lens : List Nat} {a : Bool} {limit : Nat} (hform : IsSimpleForm symbols a lens)
include hform

theorem simpleLengths_eq : simpleLengths symbols a limit = assignLengths (symbols.zip lens) (List.replicate limit 0) := by
  rcases hform with ⟨h, rfl⟩ | ⟨h, rfl⟩ | ⟨h, rfl⟩ | ⟨h, rfl⟩ <;> rw [simpleLengths, h] <;> rfl

theorem length_of_isSimpleForm : symbols.length = lens.length := by
  rcases hform with ⟨h, rfl⟩ | ⟨h, rfl⟩ | ⟨h, rfl⟩ | ⟨h, rfl⟩
  case inr.inr.inr => cases a <;> exact h
  all_goals exact h

theorem lengths_of_isSimpleForm : ∀ l ∈ lens, l ≠ 0 ∧ l ≤ 15 := by
  rcases hform with ⟨-, rfl⟩ | ⟨-, rfl⟩ | ⟨-, rfl⟩ | ⟨-, rfl⟩
  case inr.inr.inr => cases a <;> decide
  all_goals decide

/-- The forms of two symbols or more are complete (R181). -/
theorem sum_of_isSimpleForm (hmany : symbols.length ≠ 1) : (lens.map fun l => 2 ^ (15 - l)).sum = 32768 := by
  rcases hform with ⟨h, -⟩ | ⟨-, rfl⟩ | ⟨-, rfl⟩ | ⟨-, rfl⟩
  case inl => exact absurd h hmany
  case inr.inr.inr => cases a <;> decide
  all_goals decide

/-- The lengths in use are those of the form. -/
theorem filter_simpleLengths_perm (hnodup : symbols.Nodup) (hlt : ∀ x ∈ symbols, x < limit) :
    ((simpleLengths symbols a limit).filter (· ≠ 0)).Perm lens := by
  have hlen := length_of_isSimpleForm hform
  have hfst : (symbols.zip lens).map Prod.fst = symbols := List.map_fst_zip hlen.le
  have hperm := filter_assignLengths_perm (ps := symbols.zip lens) (L := List.replicate limit 0) (by rwa [hfst])
    (fun q hq => by simpa using hlt _ (List.of_mem_zip hq).1) (fun q hq => by simp)
    fun q hq => (lengths_of_isSimpleForm hform _ (List.of_mem_zip hq).2).1
  rw [simpleLengths_eq hform]
  simpa [List.map_snd_zip hlen.ge] using hperm

end

/-- Settles O27: each symbol is given its length once, so the lengths in use are the form's, in some order. -/
theorem simpleCodesAreComplete : Obligations.SimpleCodesAreComplete := by
  intro symbols a limit lens hnodup hlt hform
  change IsSimpleForm symbols a lens at hform
  have hlen := length_of_isSimpleForm hform
  have hfst : (symbols.zip lens).map Prod.fst = symbols := List.map_fst_zip hlen.le
  have hperm := filter_simpleLengths_perm hform hnodup hlt
  refine ⟨length_simpleLengths _ _ _, fun i => ?listed, fun x hx => ?other, ?complete⟩
  case listed =>
    have hi : i.val < lens.length := hlen ▸ i.isLt
    have hmem : (symbols[i], lens[i.val]) ∈ symbols.zip lens := by
      refine List.mem_iff_getElem.mpr ⟨i.val, by simpa using hi, ?_⟩
      rw [List.getElem_zip]
      rfl
    rw [simpleLengths_eq hform, List.getD_eq_getElem _ _ hi]
    exact getD_assignLengths_of_mem (by rwa [hfst]) (fun q hq => by simpa using hlt _ (List.of_mem_zip hq).1) hmem
  case other =>
    rw [simpleLengths_eq hform, getD_assignLengths_of_notMem (by rwa [hfst])]
    simp
  case complete =>
    split
    case isTrue hone => rw [usedSymbols, hperm.length_eq, ← hlen, hone]
    case isFalse hmany =>
      have hsum : kraftSum (simpleLengths symbols a limit) = 32768 := by
        rw [kraftSum, (hperm.map _).sum_eq, sum_of_isSimpleForm hform hmany]
      have hall (l : Nat) (hl : l ∈ simpleLengths symbols a limit) : l ≤ 15 := by
        rcases Nat.eq_zero_or_pos l with rfl | hpos
        · exact Nat.zero_le _
        · have hused := hperm.subset (List.mem_filter.mpr ⟨hl, by simpa using hpos.ne'⟩)
          exact (lengths_of_isSimpleForm hform l hused).2
      simpa [completeCode, hsum] using hall

/-! ## The start of a code, and the code-length code (R193, R194, R196) -/

/-- Settles O25: the reader's branch at its first phase, and the two rows' families by their number. -/
theorem prefixCodeStartRows : Obligations.PrefixCodeStartRows := by
  refine ⟨fun s hc hr ha hp => ⟨fun hf => ?_, fun hf => ?_⟩, fun n i s hi => ?hskip, fun n i s hi => ?nsym⟩
  · rw [fetch_codeReader hc hr ha, DecoderState.fetchPrefixCode, hp, hf]
  · rw [fetch_codeReader hc hr ha, DecoderState.fetchPrefixCode, hp, hf]
  case hskip =>
    have hexec : exec i s = .next (s.codeStart n) := by
      have hn : n < 4 := (List.getElem?_eq_some_iff.mp hi).1
      interval_cases n <;> exact Option.some.inj hi ▸ rfl
    rw [hexec, State.codeStart]
    exact ⟨fun h => by rw [if_pos h, h], fun h => by rw [if_neg h]⟩
  case nsym =>
    have hn : n < 4 := (List.getElem?_eq_some_iff.mp hi).1
    interval_cases n <;> exact Option.some.inj hi ▸ rfl

theorem exec_cllen {v : Nat} {i : Instr}
    (hi : [Instr.cllen_0, Instr.cllen_1, Instr.cllen_2, Instr.cllen_3, Instr.cllen_4, Instr.cllen_5][v]? = some i)
    (s : State) : exec i s = .next (s.codeLengthLength v) := by
  have hv : v < 6 := (List.getElem?_eq_some_iff.mp hi).1
  interval_cases v <;> exact Option.some.inj hi ▸ rfl

/-- Settles O28: one length read, then the three branches of the loop's end. -/
theorem codeLengthCodeRows : Obligations.CodeLengthCodeRows := by
  refine ⟨fun s hc hr ha hp => ?fetch, ?rows⟩
  case fetch => rw [fetch_codeReader hc hr ha, DecoderState.fetchPrefixCode, hp]
  case rows =>
    rintro v i s _ _ _ hi rfl rfl rfl
    rw [exec_cllen hi, State.codeLengthLength]
    refine ⟨fun hleft hmore => ?_, fun hend hspace hnum => ?_, fun hend hok => ?_⟩
    · rw [if_neg (not_or.mpr ⟨not_le.mpr hleft, hmore⟩)]
    · rw [if_pos hend, if_pos ⟨hspace, hnum⟩]
    · rw [if_pos hend, if_neg (fun h => hok.elim h.1 h.2)]

/-! ## The symbol lengths (R198 to R200) -/

theorem exec_repeat {s : State} {i : Instr} {len xb x : Nat}
    (hi : i = .clsym_16 x ∧ len = s.st.prevCodeLen ∧ xb = 2 ∨ i = .clsym_17 x ∧ len = 0 ∧ xb = 3) :
    exec i s = .next (s.repeatLength len xb x) := by
  rcases hi with ⟨rfl, rfl, rfl⟩ | ⟨rfl, rfl, rfl⟩ <;> rfl

section
variable (s : State) {st : DecoderState}

theorem symbolLengthDone_of_more (hleft : st.symIdx < st.pcAlphaLimit) (hspace : 0 < st.space) :
    s.symbolLengthDone st = { s with st := st } := if_pos ⟨hleft, hspace⟩

theorem symbolLengthDone_of_incomplete (hend : st.pcAlphaLimit ≤ st.symIdx ∨ st.space ≤ 0) (hspace : st.space ≠ 0) :
    s.symbolLengthDone st = s.raise .incompleteHuffmanCode := by
  rw [State.symbolLengthDone, if_neg (by omega), if_pos hspace]

theorem symbolLengthDone_of_complete (hspace : st.space = 0) :
    s.symbolLengthDone st =
      { s with
        st := st.deliver
          (.build ((st.codeLengths.toBytes st.pcAlphaLimit).map BitVec.toNat) Config.huffRootBits) } := by
  rw [State.symbolLengthDone, if_neg (by omega), if_neg (not_not.mpr hspace)]

variable {len x old : Nat} (xb : Nat) (hold : old = if s.st.repeatCodeLen = len then s.st.repeatCount else 0)
include hold

/-- A run past the alphabet is an error (R199). -/
theorem repeatLength_of_beyond
    (h : s.st.pcAlphaLimit < s.st.symIdx + ((if 0 < old then (old - 2) * 2 ^ xb else 0) + x + 3 - old)) :
    s.repeatLength len xb x = s.raise .incompleteHuffmanCode := by
  simp only [State.repeatLength, ← hold, Nat.shiftLeft_eq]
  exact if_pos h

theorem repeatLength_of_fits {total : Nat} (htotal : total = (if 0 < old then (old - 2) * 2 ^ xb else 0) + x + 3)
    (h : s.st.symIdx + (total - old) ≤ s.st.pcAlphaLimit) :
    s.repeatLength len xb x = s.symbolLengthDone
      { s.st with
        repeatCount := total, repeatCodeLen := len
        codeLengths := s.st.codeLengths.fill s.st.symIdx (total - old) (BitVec.ofNat 8 len)
        symIdx := s.st.symIdx + (total - old)
        space := if len = 0 then s.st.space else s.st.space - ((total - old) * 2 ^ (15 - len) : Nat)
        field := .start } := by
  simp only [State.repeatLength, ← hold, Nat.shiftLeft_eq]
  rw [← htotal]
  exact if_neg h.not_gt

end

/-- Settles O29: both kinds of symbol write their registers and end in `symbolLengthDone`. -/
theorem symbolLengthRows : Obligations.SymbolLengthRows := by
  refine ⟨fun s hc hr ha hp => ?fetch, fun i s st h => ?done, fun i s len xb x old hi hold hover => ?beyond⟩
  case fetch =>
    rw [fetch_codeReader hc hr ha, DecoderState.fetchPrefixCode, hp]
    rfl
  case done =>
    have hexec : exec i s = .next (s.symbolLengthDone st) := by
      rcases h with ⟨c, hc, rfl⟩ | ⟨len, xb, x, old, total, hi, rfl, rfl, hfits, rfl⟩
      · exact (exec_of_clsym hc s).2
      · rw [exec_repeat hi, repeatLength_of_fits s xb rfl rfl hfits]
    rw [hexec]
    exact ⟨fun hleft hspace => congrArg _ (symbolLengthDone_of_more s hleft hspace),
      fun hend hspace => congrArg _ (symbolLengthDone_of_incomplete s hend hspace),
      fun hspace => congrArg _ (symbolLengthDone_of_complete s hspace)⟩
  case beyond =>
    rw [exec_repeat hi, repeatLength_of_beyond s xb hold hover]

end Sys2Proof.Proofs

/-! The statements about meta-block headers, the compressed header and its parameters (42_metablock.md). -/

namespace Sys2Proof.Proofs

open Sys2Proof.Machine Sys2Proof.Laws

/-! ## The distance alphabet's limit (R262, R306) -/

/-- Where the distances of bucket `g` of long codes begin, in units of `2^npostfix` and counted from 4: two buckets for
each number of extra bits (R306). -/
def bucketStart (g : Nat) : Nat := (2 + g % 2) * 2 ^ (1 + g / 2)

/-- The bucket of `1 + g / 2` extra bits ends where the next one begins. -/
theorem bucketStart_add (g : Nat) : bucketStart g + 2 ^ (1 + g / 2) = bucketStart (g + 1) := by
  obtain ⟨k, rfl | rfl⟩ := Nat.even_or_odd' g
  · rw [bucketStart, bucketStart, show (2 * k + 1) / 2 = k by omega, show 2 * k / 2 = k by omega,
      show (2 * k + 1) % 2 = 1 by omega, show 2 * k % 2 = 0 by omega]
    omega
  · rw [bucketStart, bucketStart, show (2 * k + 1 + 1) / 2 = k + 1 by omega, show (2 * k + 1) / 2 = k by omega,
      show (2 * k + 1 + 1) % 2 = 0 by omega, show (2 * k + 1) % 2 = 1 by omega, ← Nat.add_assoc 1 k 1, Nat.pow_succ]
    omega

theorem bucketStart_strictMono : StrictMono bucketStart :=
  strictMono_nat_of_lt_succ fun g => by
    rw [← bucketStart_add g]
    exact Nat.lt_add_of_pos_right (Nat.two_pow_pos _)

theorem four_le_bucketStart (g : Nat) : 4 ≤ bucketStart g := bucketStart_strictMono.monotone (Nat.zero_le g)

/-- The two top bits of a number are 2 or 3. -/
theorem two_top_bits {m : Nat} (hm : 2 ≤ m) : m / 2 ^ (m.log2 - 1) = 2 + m / 2 ^ (m.log2 - 1) % 2 := by
  obtain ⟨k, hk⟩ : ∃ k, m.log2 = k + 1 :=
    Nat.exists_eq_add_of_le' ((Nat.le_log2 (by omega)).mpr hm)
  obtain ⟨hlow, hhigh⟩ := (Nat.log2_eq_iff (by omega)).mp hk
  rw [hk, Nat.add_sub_cancel]
  have hle : 2 ≤ m / 2 ^ k := (Nat.le_div_iff_mul_le (Nat.two_pow_pos k)).mpr (by rw [pow_succ] at hlow; omega)
  have hlt : m / 2 ^ k < 4 := (Nat.div_lt_iff_lt_mul (Nat.two_pow_pos k)).mpr (by
    rw [pow_succ, pow_succ] at hhigh; omega)
  omega

/-- A number's length and second bit name the bucket it lies in. -/
theorem bucketStart_bounds {m : Nat} (hm : 4 ≤ m) :
    bucketStart (2 * (m.log2 - 2) + m / 2 ^ (m.log2 - 1) % 2) ≤ m ∧
      m < bucketStart (2 * (m.log2 - 2) + m / 2 ^ (m.log2 - 1) % 2 + 1) := by
  have hlog : 2 ≤ m.log2 := (Nat.le_log2 (by omega)).mpr hm
  have htop := two_top_bits (m := m) (by omega)
  have hmod : (2 * (m.log2 - 2) + m / 2 ^ (m.log2 - 1) % 2) % 2 = m / 2 ^ (m.log2 - 1) % 2 := by omega
  have hdiv : 1 + (2 * (m.log2 - 2) + m / 2 ^ (m.log2 - 1) % 2) / 2 = m.log2 - 1 := by omega
  rw [← bucketStart_add, bucketStart, hmod, hdiv, ← htop]
  exact ⟨Nat.div_mul_le_self _ _, Nat.lt_div_mul_add (Nat.two_pow_pos _)⟩

/-- The limit is that of a number of whole buckets, which end within the greatest distance (R262). -/
theorem exists_group_of_limit {maxDistance npostfix ndirect limit : Nat}
    (h : distAlphabetLimitOf maxDistance npostfix ndirect = some limit) :
    ∃ group, limit = 16 + ndirect + group * 2 ^ npostfix ∧
      bucketStart group ≤ (maxDistance - ndirect) / 2 ^ npostfix + 4 := by
  unfold distAlphabetLimitOf at h
  split at h
  · cases h
  obtain rfl := Option.some.inj h
  have htwo : 2 ≤ (maxDistance - ndirect) / 2 ^ npostfix := by
    rw [Nat.le_div_iff_mul_le (Nat.two_pow_pos _), ← Nat.shiftLeft_eq]
    omega
  simp only [Nat.shiftRight_eq_div_pow]
  generalize hm : (maxDistance - ndirect) / 2 ^ npostfix + 4 = m
  have hbounds := bucketStart_bounds (m := m) (by omega)
  have hgroup : (m.log2 - 1 - 1) <<< 1 ||| m / 2 ^ (m.log2 - 1) % 2 = 2 * (m.log2 - 2) + m / 2 ^ (m.log2 - 1) % 2 := by
    rw [← Nat.shiftLeft_add_eq_or_of_lt (Nat.mod_lt _ (by decide)), Nat.shiftLeft_eq]
    omega
  rw [hgroup]
  generalize 2 * (m.log2 - 2) + m / 2 ^ (m.log2 - 1) % 2 = group at hbounds
  obtain ⟨hstart, hend⟩ := hbounds
  have hone : bucketStart 1 ≤ m := by rw [show bucketStart 1 = 6 from rfl]; omega
  have hpos : 1 ≤ group := Nat.le_of_lt_succ (bucketStart_strictMono.lt_iff_lt.mp (hone.trans_lt hend))
  refine ⟨group, ?_, hstart⟩
  rw [Nat.shiftLeft_eq, Nat.shiftLeft_eq, ← Nat.add_mul, Nat.sub_add_cancel hpos]
  omega

/-- The distances of a long code lie in its bucket (R306). -/
theorem longDistance_le {npostfix ndirect n x : Nat} (hx : x < 2 ^ (1 + n / 2 ^ npostfix / 2)) :
    longDistance npostfix ndirect (16 + ndirect + n) x ≤
      (bucketStart (n / 2 ^ npostfix + 1) - 4) * 2 ^ npostfix + ndirect := by
  have hsub : 16 + ndirect + n - ndirect - 16 = n := by omega
  have hlow : n % 2 ^ npostfix < 2 ^ npostfix := Nat.mod_lt _ (Nat.two_pow_pos _)
  have h4 := four_le_bucketStart (n / 2 ^ npostfix)
  have hnext := bucketStart_add (n / 2 ^ npostfix)
  have hdistance : longDistance npostfix ndirect (16 + ndirect + n) x =
      (bucketStart (n / 2 ^ npostfix) - 4 + x) * 2 ^ npostfix + n % 2 ^ npostfix + ndirect + 1 := by
    simp only [longDistance, hsub, Nat.shiftRight_eq_div_pow, Nat.shiftLeft_eq, bucketStart, Nat.pow_succ,
      Nat.div_div_eq_div_mul]
  have hfits : bucketStart (n / 2 ^ npostfix) - 4 + x + 1 ≤ bucketStart (n / 2 ^ npostfix + 1) - 4 := by omega
  have hscaled := Nat.mul_le_mul_right (2 ^ npostfix) hfits
  rw [Nat.succ_mul] at hscaled
  rw [hdistance]
  omega

/-- Settles O37: a code below the limit lies in a bucket that ends within the greatest distance. -/
theorem distancesBelowTheLimit : Obligations.DistancesBelowTheLimit := by
  refine ⟨fun p d sym x limit hp hd hlimit hsym hbelow hx => ⟨Nat.le_add_left _ _, ?_⟩, by decide, by decide, by decide,
    by decide⟩
  obtain ⟨group, rfl, hgroup⟩ := exists_group_of_limit hlimit
  obtain ⟨n, rfl⟩ := Nat.exists_eq_add_of_le hsym
  have hn : n / 2 ^ p + 1 ≤ group := Nat.div_lt_of_lt_mul (by rw [Nat.mul_comm]; omega)
  have hxbits : x < 2 ^ (1 + n / 2 ^ p / 2) := by
    rw [distExtraBits, show 16 + d * 2 ^ p + n - d * 2 ^ p - 16 = n by omega, Nat.shiftRight_eq_div_pow,
      Nat.pow_succ, ← Nat.div_div_eq_div_mul] at hx
    exact hx
  have hend := (bucketStart_strictMono.monotone hn).trans hgroup
  have hdirect : d * 2 ^ p ≤ 15 * 2 ^ 3 := Nat.mul_le_mul (by omega) (Nat.pow_le_pow_right (by decide) (by omega))
  calc longDistance p (d * 2 ^ p) (16 + d * 2 ^ p + n) x
      ≤ (bucketStart (n / 2 ^ p + 1) - 4) * 2 ^ p + d * 2 ^ p := longDistance_le hxbits
    _ ≤ (0x7FFFFFFC - d * 2 ^ p) / 2 ^ p * 2 ^ p + d * 2 ^ p :=
        Nat.add_le_add_right (Nat.mul_le_mul_right _ (Nat.sub_le_iff_le_add.mpr hend)) _
    _ ≤ (0x7FFFFFFC - d * 2 ^ p) + d * 2 ^ p := Nat.add_le_add_right (Nat.div_mul_le_self _ _) _
    _ = 0x7FFFFFFC := Nat.sub_add_cancel (by omega)

/-! ## Contexts (R255, R293) -/

/-- Entries below a bound, and 0 after the last one. -/
theorem tableAt_lt {t : List Nat} {n : Nat} (h : ∀ x ∈ t, x < n) (h0 : 0 < n) (i : Nat) : tableAt t i < n := by
  rw [tableAt, List.getD_eq_getElem?_getD]
  cases hi : t[i]? with
  | none => exact h0
  | some x => exact h x (List.mem_of_getElem? hi)

theorem lut0_lt (i : Nat) : lut0 i < 2 ^ 6 := by
  have hrows : ∀ x ∈ lut0Low, x < 64 := by
    simp only [lut0Low, List.forall_mem_append]
    decide
  have hlow := tableAt_lt hrows (by decide) i
  unfold lut0
  split_ifs <;> omega

theorem lut1_lt (i : Nat) : lut1 i < 2 ^ 6 := by
  have hrows : ∀ x ∈ lut1Low, x < 64 := by
    simp only [lut1Low, List.forall_mem_append]
    decide
  have hlow := tableAt_lt hrows (by decide) i
  unfold lut1
  split_ifs <;> omega

theorem lut2_lt (i : Nat) : lut2 i < 8 := by
  unfold lut2
  split_ifs <;> decide

/-- A literal context has six bits (R293). -/
theorem contextId_lt {p1 : Nat} (mode p2 : Nat) (h : p1 < 256) : contextId mode p1 p2 < 2 ^ 6 := by
  unfold contextId
  split
  · exact Nat.mod_lt _ (by decide)
  · omega
  · exact Nat.or_lt_two_pow (lut0_lt p1) (lut1_lt p2)
  · have := lut2_lt p1
    have := lut2_lt p2
    exact Nat.or_lt_two_pow (by omega) (by omega)

/-- Settles O38: a context has six bits, and the transform's bound is the invariant's. -/
theorem contextBounds : Obligations.ContextBounds :=
  ⟨fun mode _ p2 h _ => contextId_lt mode p2 h, inverseMoveToFront_below⟩

/-! ## The meta-block header (R224 to R228) -/

/-- Settles O17: each place of the header reads its own field, and each row is its operation at one operand. -/
theorem metablockHeaderRows : Obligations.MetablockHeaderRows := by
  refine ⟨fun s f c hc hr hf hmem => ?fetch, fun w h => ?reserved, fun s => ?rows⟩
  case fetch =>
    rw [fetch_header hc hr, DecoderState.fetchHeader, hf]
    simp only [List.mem_cons, Prod.mk.injEq, List.not_mem_nil, or_false] at hmem
    rcases hmem with ⟨rfl, rfl⟩ | ⟨rfl, rfl⟩ | ⟨rfl, rfl⟩ | ⟨rfl, rfl⟩ | ⟨rfl, rfl⟩ | ⟨rfl, rfl⟩ <;> rfl
  case reserved =>
    simp only [decode]
    exact bits_available (n := 1) h _
  case rows => exact ⟨fun _ => rfl, rfl, rfl, rfl, rfl, rfl, rfl, rfl, rfl, rfl, rfl, rfl, rfl, rfl⟩

/-! ## Where the compressed header's elements are read (R235) -/

theorem fetch_huffmanData {s : State} (hc : s.inCall = true) (hr : s.st.runningState = .metablockHuffmanData) :
    s.fetch = s.st.fetchHuffmanData := by
  rw [fetch_of_inCall hc, DecoderState.fetch, hr]

section
variable {s : State} (hc : s.inCall = true) (hr : s.st.runningState = .metablockHuffmanData)
  (ha : s.st.pcActive = false)
include hc hr ha

theorem fetch_partition (hp : s.st.hphase = .partL ∨ s.st.hphase = .partI ∨ s.st.hphase = .partD) :
    s.fetch = s.st.fetchPartition s.st.cat := by
  rw [fetch_huffmanData hc hr]
  rcases hp with hp | hp | hp <;> simp [DecoderState.fetchHuffmanData, DecoderState.cat, ha, hr, hp]

theorem fetch_map (hp : s.st.hphase = .cmapL ∨ s.st.hphase = .cmapD) : s.fetch = s.st.fetchMap := by
  rw [fetch_huffmanData hc hr]
  rcases hp with hp | hp <;> simp [DecoderState.fetchHuffmanData, ha, hp]

end

/-! ## The end of a partition and of a context map (R238, R258) -/

/-- The phase after the partition of a category (R235). -/
def phaseAfter (k : Cat) : HPhase :=
  match k with
  | .L => .partI
  | .I => .partD
  | .D => .distParams

theorem afterPartition_eq (st : DecoderState) (k : Cat) :
    st.afterPartition k = { st with hphase := phaseAfter k, hsub := 0, hidx := 0, pcActive := false } := by
  cases k <;> rfl

theorem mapSize_eq (st : DecoderState) :
    st.mapSize = if st.hphase = .cmapL then 64 * st.numBlockTypes.L else 4 * st.numBlockTypes.D := by
  unfold DecoderState.mapSize
  split
  · rw [if_pos ‹_›]
  · rw [if_neg ‹_›]

/-- The literal map is stored, and the distance map begins (R258). -/
theorem endMap_literal {st : DecoderState} (h : st.hphase = .cmapL) :
    st.endMap =
      { st with
        contextMapL := st.contextMapL.writeAll 0 (st.cmMap.toBytes st.cmSize), numLiteralTrees := st.cmNumTrees
        hphase := .cmapD, hsub := 0, hidx := 0, pcActive := false } := by
  rw [DecoderState.endMap, h]
  rfl

/-- The distance map is stored, and the first literal code begins (R258, R260). -/
theorem endMap_distance {st : DecoderState} (h : st.hphase = .cmapD) :
    st.endMap =
      { st with
        contextMapD := st.contextMapD.writeAll 0 (st.cmMap.toBytes st.cmSize), numDistTrees := st.cmNumTrees
        hphase := .treesL, hsub := 0, hidx := 0
        pcActive := true, pcPhase := .start, pcAlphaMax := 256, pcAlphaLimit := 256 } := by
  rw [DecoderState.endMap, h]
  rfl

/-! ## Counts of block types and of trees (R237, R238, R250, R251) -/

theorem exec_ntrees_one_literal {s : State} (h : s.st.hphase = .cmapL) :
    exec (.ntrees 1) s = .next
      { s with
        st := { s.st with
          cmNumTrees := 1, cmSize := 64 * s.st.numBlockTypes.L, cmIdx := 0, field := .start
          cmMap := s.st.cmMap.fill 0 (64 * s.st.numBlockTypes.L) 0
          contextMapL := s.st.contextMapL.writeAll 0
            ((s.st.cmMap.fill 0 (64 * s.st.numBlockTypes.L) 0).toBytes (64 * s.st.numBlockTypes.L))
          numLiteralTrees := 1
          hphase := .cmapD, hsub := 0, hidx := 0, pcActive := false } } := by
  show Host.Outcome.next (s.mapTrees 1) = _
  rw [State.mapTrees, DecoderState.setMapTrees, if_pos rfl, endMap_literal (by exact h), mapSize_eq, if_pos h]
  rfl

theorem exec_ntrees_one_distance {s : State} (h : s.st.hphase = .cmapD) :
    exec (.ntrees 1) s = .next
      { s with
        st := { s.st with
          cmNumTrees := 1, cmSize := 4 * s.st.numBlockTypes.D, cmIdx := 0, field := .start
          cmMap := s.st.cmMap.fill 0 (4 * s.st.numBlockTypes.D) 0
          contextMapD := s.st.contextMapD.writeAll 0
            ((s.st.cmMap.fill 0 (4 * s.st.numBlockTypes.D) 0).toBytes (4 * s.st.numBlockTypes.D))
          numDistTrees := 1
          hphase := .treesL, hsub := 0, hidx := 0
          pcActive := true, pcPhase := .start, pcAlphaMax := 256, pcAlphaLimit := 256 } } := by
  show Host.Outcome.next (s.mapTrees 1) = _
  rw [State.mapTrees, DecoderState.setMapTrees, if_pos rfl, endMap_distance (by exact h), mapSize_eq,
    if_neg (by rw [h]; decide)]
  rfl

/-- The first `n` bytes of a memory as another holds them. -/
theorem read_writeAll_toBytes {m m' : Memory} (hm : m.wf) (n i : Nat) :
    (m.writeAll 0 (m'.toBytes n)).read i = if i < n then m'.read i else m.read i := by
  rw [Memory.read_writeAll hm, Memory.length_toBytes]
  by_cases hi : i < n
  · rw [if_pos (by omega), if_pos hi]
    simp [Memory.toBytes, List.getD_eq_getElem?_getD, hi]
  · rw [if_neg (by omega), if_neg hi]

/-- The map of one tree is 0 over its size, and the map it is stored in is as before beyond it (R251). -/
theorem read_zeroMap {m m' : Memory} (hm : m.wf) (hm' : m'.wf) (n i : Nat) :
    (m.writeAll 0 ((m'.fill 0 n 0).toBytes n)).read i = if i < n then 0 else m.read i := by
  rw [read_writeAll_toBytes hm]
  by_cases hi : i < n
  · rw [if_pos hi, if_pos hi, Memory.read_fill hm', if_pos (by omega)]
  · rw [if_neg hi, if_neg hi]

/-- Settles O21: a count of 1 ends its phase, any other goes on in the phase. -/
theorem partitionRows : Obligations.PartitionRows := by
  refine ⟨fun s c hc hr ha hsub hp => ?fetch, fun _ => rfl, fun _ => rfl, fun n x i s hi => exec_of_varlen8 hi s,
    fun s => ?oneType, fun v s hv => ?types, fun s => exec_ntrees_one_literal, fun s => exec_ntrees_one_distance,
    fun s t hmap hL hD hexec => ⟨fun hp i => ?literal, fun hp i => ?distance⟩, fun v s hv => ?trees⟩
  case fetch =>
    rcases hp with ⟨hp, rfl⟩ | ⟨hp, rfl⟩
    · rw [fetch_partition hc hr ha hp, DecoderState.fetchPartition, hsub]
      exact ⟨fun hf => by rw [hf]; rfl, fun v hf => by rw [hf]; rfl⟩
    · rw [fetch_map hc hr ha hp, DecoderState.fetchMap, hsub]
      exact ⟨fun hf => by rw [hf]; rfl, fun v hf => by rw [hf]; rfl⟩
  case oneType =>
    show Host.Outcome.next (s.blockTypes 1) = _
    rw [State.blockTypes, DecoderState.setBlockTypes, if_pos rfl, afterPartition_eq]
    rfl
  case types =>
    show Host.Outcome.next (s.blockTypes v) = _
    rw [State.blockTypes, DecoderState.setBlockTypes, if_neg hv]
    rfl
  case literal =>
    rw [exec_ntrees_one_literal hp] at hexec
    cases hexec
    exact read_zeroMap hL hmap _ i
  case distance =>
    rw [exec_ntrees_one_distance hp] at hexec
    cases hexec
    exact read_zeroMap hD hmap _ i
  case trees =>
    show Host.Outcome.next (s.mapTrees v) = _
    rw [State.mapTrees, DecoderState.setMapTrees, if_neg hv, mapSize_eq]

/-! ## The distance parameters (R242, R262) -/

/-- The large-window alphabet has a limit, and its buckets are fewer than the 124 of the alphabet (R262). -/
theorem exists_limit_le {npostfix d : Nat} (hp : npostfix < 4) (hd : d < 16) :
    ∃ limit, distAlphabetLimitOf 0x7FFFFFFC npostfix (d * 2 ^ npostfix) = some limit ∧
      limit ≤ 16 + d * 2 ^ npostfix + 124 * 2 ^ npostfix := by
  have h8 : 2 ^ npostfix ≤ 2 ^ 3 := Nat.pow_le_pow_right (by decide) (by omega)
  have hdirect : d * 2 ^ npostfix ≤ 15 * 2 ^ 3 := Nat.mul_le_mul (by omega) h8
  obtain ⟨limit, hlimit⟩ : ∃ limit, distAlphabetLimitOf 0x7FFFFFFC npostfix (d * 2 ^ npostfix) = some limit := by
    rw [distAlphabetLimitOf, if_neg (by rw [Nat.shiftLeft_eq]; omega)]
    exact ⟨_, rfl⟩
  refine ⟨limit, hlimit, ?_⟩
  obtain ⟨group, rfl, hgroup⟩ := exists_group_of_limit hlimit
  have hoffset := Nat.div_le_self (0x7FFFFFFC - d * 2 ^ npostfix) (2 ^ npostfix)
  have hlast : bucketStart group < bucketStart 124 :=
    hgroup.trans_lt (Nat.lt_of_le_of_lt (Nat.add_le_add_right (hoffset.trans (Nat.sub_le _ _)) 4) (by decide))
  have := bucketStart_strictMono.lt_iff_lt.mp hlast
  exact Nat.add_le_add_left (Nat.mul_le_mul_right _ this.le) _

theorem directCodes_of_alphabets {s : State} {d alphaMax alphaLimit : Nat}
    (h : distAlphabets s.st.isLargeWindow s.st.npostfix (d * 2 ^ s.st.npostfix) = some (alphaMax, alphaLimit)) :
    s.directCodes d =
      { s with
        st := { s.st with
          ndirect := d * 2 ^ s.st.npostfix, distAlphabetMax := alphaMax, distAlphabetLimit := alphaLimit
          field := .start, hphase := .ctxModes, hsub := 0, hidx := 0, pcActive := false } } := by
  rw [State.directCodes, Nat.shiftLeft_eq, h]
  rfl

/-- Settles O22: the alphabet's sizes are R262's, whose limit exists for every parameter a header can hold. -/
theorem distanceParameterRows : Obligations.DistanceParameterRows := by
  refine ⟨fun s hc hr ha hp => ⟨fun hf => ?npostfix, fun hf => ?ndirect⟩, fun _ _ => rfl, fun d s hlarge => ?small,
    fun d s hlarge hp hd => ?large⟩
  case npostfix | ndirect =>
    rw [fetch_huffmanData hc hr]
    simp [DecoderState.fetchHuffmanData, ha, hp, hf]
  case small =>
    refine congrArg Host.Outcome.next (directCodes_of_alphabets ?_)
    rw [hlarge, distAlphabets, if_neg (by decide), Nat.shiftLeft_eq]
  case large =>
    obtain ⟨limit, hlimit, hle⟩ := exists_limit_le hp hd
    refine ⟨limit, hlimit, hle, congrArg Host.Outcome.next (directCodes_of_alphabets ?_)⟩
    rw [hlarge, distAlphabets, if_pos rfl, show Config.maxAllowedDistance = 0x7FFFFFFC from rfl, hlimit,
      Nat.shiftLeft_eq]
    rfl

/-! ## The context modes (R244) -/

theorem exec_cmode {m : Nat} {i : Instr}
    (hi : [Instr.cmodeLsb6, Instr.cmodeMsb6, Instr.cmodeUtf8, Instr.cmodeSigned][m]? = some i) (s : State) :
    exec i s = .next (s.contextMode m) := by
  have hm : m < 4 := (List.getElem?_eq_some_iff.mp hi).1
  interval_cases m <;> exact Option.some.inj hi ▸ rfl

/-- Settles O23: one mode written, then the next one or the next phase. -/
theorem contextModeRows : Obligations.ContextModeRows := by
  refine ⟨fun s hc hr ha hp => ?fetch, fun m i s hi => ?rows⟩
  case fetch =>
    rw [fetch_huffmanData hc hr]
    simp [DecoderState.fetchHuffmanData, ha, hp]
  case rows =>
    rw [exec_cmode hi, State.contextMode]
    refine ⟨fun hmore => ?_, fun hlast => ?_⟩
    · rw [if_pos hmore]
    · rw [if_neg hlast.not_gt]
      rfl

/-! ## The elements of a context map (R252 to R258) -/

theorem mapDone_eq (st : DecoderState) (n : Nat) :
    st.mapDone n =
      { st with
        cmIdx := st.cmIdx + n, field := .start, hsub := if st.cmIdx + n < st.cmSize then st.hsub else 4 } := by
  by_cases hmore : st.cmIdx + n < st.cmSize
  · rw [if_pos hmore]
    exact if_pos hmore
  · rw [if_neg hmore]
    exact if_neg hmore

/-- An entry writes its value and is done (R254). -/
theorem exec_mapEntry {i : Instr} {s : State} {v : Nat}
    (hi : i = .cmapZero ∧ v = 0 ∨ i = .cmapValue (v + s.st.cmRleMax)) : exec i s = .next (s.mapEntry v) := by
  rcases hi with ⟨rfl, rfl⟩ | rfl
  · rfl
  · show Host.Outcome.next (s.mapEntry (v + s.st.cmRleMax - s.st.cmRleMax)) = _
    rw [Nat.add_sub_cancel]

/-- The entries as the end of a map takes them, transformed or not (R257). -/
theorem mapTransform_eq (s : State) (a : Bool) :
    s.mapTransform a =
      { s with
        st := ({ s.st with
          field := .start
          cmMap := if a then s.st.cmMap.writeAll 0 (inverseMoveToFront (s.st.cmMap.toBytes s.st.cmSize))
            else s.st.cmMap } : DecoderState).endMap } := by
  cases a <;> rfl

/-- Settles O24: each element is its operation, and the last one ends the map of its phase. -/
theorem contextMapRows : Obligations.ContextMapRows := by
  refine ⟨fun s hc hr ha hp => ?fetch, fun s => ⟨rfl, fun i r hi => ?runMax, fun i v hi => ?entry,
    fun c x i hi hfits => ?run, fun c x i hi hover => ?overflow,
    fun a m hm => ⟨fun hp => ?literal, fun hp => ?distance⟩⟩⟩
  case fetch =>
    rw [fetch_map hc hr ha hp, DecoderState.fetchMap]
    refine ⟨fun hsub hf => ?_, fun hsub hf => ?_, fun hsub hf => ?_, fun hsub hf => ?_⟩ <;> rw [hsub, hf] <;> rfl
  case runMax => rcases hi with ⟨rfl, rfl⟩ | ⟨x, rfl, rfl⟩ <;> rfl
  case entry =>
    rw [exec_mapEntry hi, State.mapEntry, mapDone_eq]
    rfl
  case run =>
    rw [exec_of_cmapRun hi, State.mapRun, if_neg hfits.not_gt, mapDone_eq]
    rfl
  case overflow => rw [exec_of_cmapRun hi, State.mapRun, if_pos hover]
  case literal =>
    show Host.Outcome.next (s.mapTransform a) = _
    rw [mapTransform_eq, ← hm, endMap_literal (by exact hp)]
  case distance =>
    show Host.Outcome.next (s.mapTransform a) = _
    rw [mapTransform_eq, ← hm, endMap_distance (by exact hp)]

/-! ## Where a finished code goes (R238, R253, R260) -/

/-- Settles O30: the branches of `deliver`, phase by phase. -/
theorem finishedCodeGoesToItsPhase : Obligations.FinishedCodeGoesToItsPhase := by
  refine fun st T => ⟨fun k hk => ?partition, fun hp => ?map, fun hp => ?literals, fun hp => ?commands,
    fun hp => ?distances⟩
  case partition =>
    have hdeliver : st.deliver T = st.deliverPartition k T := by
      rcases hk with ⟨hp, rfl⟩ | ⟨hp, rfl⟩ | ⟨hp, rfl⟩ <;> rw [DecoderState.deliver, hp]
    rw [hdeliver, DecoderState.deliverPartition]
    refine ⟨fun hsub => ?_, fun hsub => ?_⟩
    · rw [if_pos hsub]
      rfl
    · rw [if_neg (by rw [hsub]; decide)]
  case map => rcases hp with hp | hp <;> rw [DecoderState.deliver, hp]
  case literals | commands | distances =>
    rw [DecoderState.deliver, hp]
    rfl

/-! ## Block switches and block counts (R238, R239, R295) -/

theorem newBlockType_eq (st : DecoderState) (k : Cat) (t : Nat) {new : Nat}
    (hnew : new = if t = 0 then st.prevBlockType.get k else if t = 1 then st.blockType.get k + 1 else t - 2) :
    st.newBlockType k t = if st.numBlockTypes.get k ≤ new then new - st.numBlockTypes.get k else new := by
  subst hnew
  rcases t with _ | _ | t <;> rfl

theorem cat_of_partition {st : DecoderState} {k : Cat} (hr : st.runningState = .metablockHuffmanData)
    (hp : st.hphase = .partL ∧ k = .L ∨ st.hphase = .partI ∧ k = .I ∨ st.hphase = .partD ∧ k = .D) : st.cat = k := by
  rcases hp with ⟨hp, rfl⟩ | ⟨hp, rfl⟩ | ⟨hp, rfl⟩ <;> simp [DecoderState.cat, hr, hp]

theorem cat_of_command {st : DecoderState} {k : Cat}
    (hr : st.runningState = .mainLoop ∧ k = .I ∨ st.runningState = .insertLoop ∧ st.j < st.insertLength ∧ k = .L ∨
      st.runningState = .insertLoop ∧ st.insertLength ≤ st.j ∧ k = .D) : st.cat = k := by
  rcases hr with ⟨hr, rfl⟩ | ⟨hr, hj, rfl⟩ | ⟨hr, hj, rfl⟩
  · rw [DecoderState.cat, hr]
  · rw [DecoderState.cat, hr]
    exact if_pos hj
  · rw [DecoderState.cat, hr]
    exact if_neg hj.not_gt

/-- Settles O32: a count ends a switch of its category where the type's symbol stands before it, else a partition. -/
theorem blockSwitchRows : Obligations.BlockSwitchRows := by
  refine ⟨fun s k hc hr ha hsub hf hp => ⟨cat_of_partition hr hp, ?partition⟩,
    fun s t k hc hf hr => ⟨cat_of_command hr, ?switch⟩, fun _ => rfl, fun _ => rfl, fun _ _ => rfl,
    fun c x i s t k new hi hf hk hnew => ?switchCount, fun c x i s k hi hf hk => ?firstCount⟩
  case partition =>
    rw [fetch_partition hc hr ha (hp.imp And.left (Or.imp And.left And.left)), cat_of_partition hr hp,
      DecoderState.fetchPartition, hsub, hf]
    rfl
  case switch =>
    have hcat := cat_of_command hr
    rw [fetch_of_inCall hc, DecoderState.fetch]
    rcases hr with ⟨hr, rfl⟩ | ⟨hr, -⟩ | ⟨hr, -⟩ <;> rw [hr]
    case inl =>
      rw [DecoderState.fetchMainLoop, hf]
      rfl
    all_goals rw [DecoderState.fetchInsertLoop, hf, hcat]
  case switchCount =>
    rw [exec_of_blen hi, State.blockCountCode, State.blockCount, hf, hk, ← newBlockType_eq s.st k t hnew]
    rfl
  case firstCount =>
    rw [exec_of_blen hi, State.blockCountCode, State.blockCount, hf, hk, afterPartition_eq]
    rfl

/-! ## Steps that read no bit (R223, R230, R231, R265, R284, R298) -/

/-- Settles O45: each step moves on, and BlockStart's asks whether the last meta-block is over. -/
theorem boundarySteps : Obligations.BoundarySteps := by
  refine ⟨fun s hc => ⟨fun hr => ?blockStart, fun hr ha hp => ?finalize⟩,
    fun s => ⟨fun hlast => ?last, fun hmore => ?more, rfl, rfl, rfl⟩⟩
  case blockStart => rw [fetch_of_inCall hc, DecoderState.fetch, hr]
  case finalize =>
    rw [fetch_huffmanData hc hr]
    simp [DecoderState.fetchHuffmanData, ha, hp]
  case last =>
    show s.stepBlockStart = _
    rw [State.stepBlockStart, if_pos hlast]
  case more =>
    show s.stepBlockStart = _
    rw [State.stepBlockStart, if_neg (Bool.eq_false_iff.mp hmore)]

end Sys2Proof.Proofs

/-! The statements about commands, resolved distances and copies (43_sequence.md; 44_dictionary.md for the copies). -/

namespace Sys2Proof.Proofs

open Sys2Proof.Machine Sys2Proof.Laws

/-! ## What MainLoop reads (R280 to R286) -/

theorem fetch_mainLoop {s : State} (hc : s.inCall = true) (hr : s.st.runningState = .mainLoop) :
    s.fetch = s.st.fetchMainLoop := by
  rw [fetch_of_inCall hc, DecoderState.fetch, hr]

/-- At the beginning of a command step: the end of the meta-block, a block switch, or a command symbol (R284). -/
theorem fetch_command {s : State} (hc : s.inCall = true) (hr : s.st.runningState = .mainLoop)
    (hf : s.st.field = .start) :
    s.fetch =
      if s.st.metaBlockLength = 0 then .internal .endOfBlock
      else s.st.fetchSymbol .I (withTree s.st.commandTrees s.st.blockType.I .cmd) := by
  rw [fetch_mainLoop hc hr, DecoderState.fetchMainLoop, hf]

/-- The command symbol is next, with the tree of the block type (R284). -/
theorem fetch_commandSymbol {s : State} {T : HuffmanTable} (hc : s.inCall = true) (hr : s.st.runningState = .mainLoop)
    (hf : s.st.field = .start) (hleft : s.st.metaBlockLength ≠ 0)
    (hcount : s.st.blockLength.I ≠ 0 ∨ s.st.numBlockTypes.I < 2) (hT : s.st.commandTrees[s.st.blockType.I]? = some T) :
    s.fetch = .element (.cmd T) := by
  rw [fetch_command hc hr hf, if_neg hleft, fetchSymbol_next (k := .I) _ hcount, withTree_some _ hT]

/-- The cells whose commands take the last distance are the first two of 64 symbols (R280). -/
theorem implicitDistance_eq (c : Nat) : implicitDistance c = decide (c < 128) := by
  have hcell : c >>> 6 < 2 ↔ c < 128 := by rw [Nat.shiftRight_eq_div_pow, Nat.div_lt_iff_lt_mul (by decide)]
  exact decide_eq_decide.mpr hcell

/-- The end of a command step whose insert length fits the meta-block (R282, R284, R299). -/
theorem copyLengthCode_fits {s : State} (h : s.st.insertLength ≤ s.st.metaBlockLength) (c x : Nat) :
    s.copyLengthCode c x =
      { s with
        st := { s.st with
          copyLength := tableAt copyBase c + x, distContext := distContextOf (tableAt copyBase c + x)
          j := 0, runningState := .insertLoop, field := .start } } :=
  if_neg h.not_gt

/-- Settles O33: each row is one operation of the command step, whose last part refuses an insert length that does not
fit the meta-block. -/
theorem commandRows : Obligations.CommandRows := by
  refine ⟨fun s hc hr hf => ⟨fun hend => ?endOfBlock, fun hleft hused htwo => ?switch,
      fun T hleft hcount => fetch_commandSymbol hc hr hf hleft hcount⟩,
    fun c i s hi => ?command, fun c x i s hi => exec_of_inslen hi s, fun c x i s hi hfits => ?copyLength,
    fun c x i s hi hover => ?overflow⟩
  case endOfBlock => rw [fetch_command hc hr hf, if_pos hend]
  case switch =>
    rw [fetch_command hc hr hf, if_neg hleft]
    exact fetchSymbol_switch (k := .I) _ hused htwo
  case command =>
    obtain ⟨-, hexec⟩ := exec_of_cmd hi s
    rw [hexec, State.command, implicitDistance_eq]
  case copyLength =>
    rw [exec_of_copylen hi, copyLengthCode_fits hfits]
    rfl
  case overflow => rw [exec_of_copylen hi, State.copyLengthCode, if_pos hover]

/-! ## A command step (R284) -/

/-- The first step of a run that goes on. -/
theorem run_succ_of_step {M : Host.Core} {s t : M.State} (h : M.step s = .next t) (k : Nat) :
    M.run (k + 1) s = M.run k t := by
  rw [Host.Core.run, h]

/-- A field later in the window is the field at the cursor moved on to it (R151, R152). -/
theorem streamValue_advance (bs : List Byte) (p : Nat) {n k : Nat} (h : n + k ≤ 65) :
    streamValue bs (p + n) % 2 ^ k = streamValue bs p / 2 ^ n % 2 ^ k := by
  calc streamValue bs (p + n) % 2 ^ k
      = streamNat bs / 2 ^ (p + n) % 2 ^ k := streamValue_mod bs (p + n) (by omega)
    _ = streamNat bs / 2 ^ p % 2 ^ (n + k) / 2 ^ n := by
      rw [Nat.pow_add, ← Nat.div_div_eq_div_mul, Nat.pow_add, Nat.mod_mul_right_div_self]
    _ = streamValue bs p / 2 ^ n % 2 ^ k := by
      rw [← streamValue_mod bs p h, Nat.pow_add, Nat.mod_mul_right_div_self]

theorem cmdInstr_of_lt {c : Nat} (h : c < 704) : ∃ i, cmdInstr c = some i :=
  ⟨_, by rw [cmdInstr, List.getElem?_eq_getElem (show c / 64 < 11 by omega)]; rfl⟩

theorem inslenInstr_of_lt {c : Nat} (h : c < 24) (x : Nat) : ∃ i, inslenInstr c x = some i :=
  ⟨_, by rw [inslenInstr, List.getElem?_eq_getElem (show c < 24 from h)]; rfl⟩

theorem copylenInstr_of_lt {c : Nat} (h : c < 24) (x : Nat) : ∃ i, copylenInstr c x = some i :=
  ⟨_, by rw [copylenInstr, List.getElem?_eq_getElem (show c < 24 from h)]; rfl⟩

theorem insXbits_le {c : Nat} (h : c < 24) : tableAt insXbits c ≤ 24 := by
  revert c
  decide

theorem copyXbits_le {c : Nat} (h : c < 24) : tableAt copyXbits c ≤ 24 := by
  revert c
  decide

/-- A symbol whose peek is held is read from the window's first 15 bits (R190). -/
theorem sym_available {w : Window} {T : HuffmanTable} {k : Nat → Nat → Read} {c n : Nat} (hpeek : 15 ≤ w.avail)
    (hn : n ≤ 15) (hT : T.lookup (w.value % 2 ^ 15) = some (c, n)) : w.sym 0 T k = k c n := by
  have hfield : w.field 0 15 = w.value % 2 ^ 15 := by rw [Window.field, Nat.pow_zero, Nat.div_one]
  rw [Window.sym, if_neg (by omega), hfield, hT]
  simp only [Nat.zero_add]
  exact if_pos (hn.trans hpeek)

/-- A field at the cursor whose bits are held (R153). -/
theorem bits_at_cursor {w : Window} {n : Nat} (h : n ≤ w.avail) (k : Nat → Read) :
    w.bits 0 n k = k (w.value % 2 ^ n) := by
  rw [bits_available (by omega), Window.field, Nat.pow_zero, Nat.div_one]

/-- A step that reads a row whose word is one field, within an element step that has begun (R12, R153). -/
theorem step_fieldRow {s u : State} {c : Ctx} {m : Nat} {i : Instr} {row : Nat → Option Instr}
    (hfetch : s.fetch = .element c) (hat : At s.st c) (hbegun : s.wantsLookahead c = false)
    (hdecode : ∀ w, decode c w = w.bits 0 m fun x => .ofOption (row x) m) (hheld : m ≤ s.bitsHeld)
    (hi : row (streamValue s.IN s.st.bitpos % 2 ^ m) = some i) (hexec : exec i (s.advance m) = .next u) :
    step s = .next u.commit := by
  obtain ⟨hrow, -⟩ := stepRunsTheDecodedInstruction
  refine hrow s c i m u hfetch hbegun ?_ ?_
  · rw [window_of_at hat, hdecode, bits_at_cursor (by exact hheld), hi]
    rfl
  · rw [take_of_at hat]
    exact hexec

section
variable {s : State} (hc : s.inCall = true) (hr : s.st.runningState = .mainLoop)
include hc hr

/-- The row of the command symbol (R284). -/
theorem step_commandSymbol {T : HuffmanTable} {c n : Nat} (hf : s.st.field = .start)
    (hlook : s.params.lookaheadBits = 0) (hleft : s.st.metaBlockLength ≠ 0) (hcount : s.st.blockLength.I ≠ 0)
    (hT : s.st.commandTrees[s.st.blockType.I]? = some T)
    (hsym : T.lookup (streamValue s.IN s.st.bitpos % 2 ^ 15) = some (c, n)) (hn : n ≤ 15) (hlt : c < 704)
    (hheld : 15 ≤ s.bitsHeld) : step s = .next ((s.advance n).command c) := by
  obtain ⟨i, hi⟩ := cmdInstr_of_lt hlt
  obtain ⟨hrow, -⟩ := stepRunsTheDecodedInstruction
  refine hrow s (.cmd T) i n _ (fetch_commandSymbol hc hr hf hleft (.inl hcount) hT) ?_ ?_ (exec_of_cmd hi _).2
  · simp [State.wantsLookahead, hf, hlook]
  · rw [decode, sym_available hheld hn hsym, hi]
    rfl

/-- The row of the insert length (R281, R284). -/
theorem step_insertLength {code : Nat} (hf : s.st.field = .insLen) (hcode : code = insertCode s.st.cmdCode)
    (hlt : code < 24) (hheld : tableAt insXbits code ≤ s.bitsHeld) :
    step s = .next ((s.advance (tableAt insXbits code)).insertLengthCode code
      (streamValue s.IN s.st.bitpos % 2 ^ tableAt insXbits code)) := by
  obtain ⟨i, hi⟩ := inslenInstr_of_lt hlt (streamValue s.IN s.st.bitpos % 2 ^ tableAt insXbits code)
  have hfetch : s.fetch = .element (.insLen code) := by
    rw [fetch_mainLoop hc hr, DecoderState.fetchMainLoop, hf, hcode]
  exact step_fieldRow hfetch ⟨hr, hf, hcode⟩ (by simp [State.wantsLookahead, hf]) (fun _ => by rw [decode]) hheld hi
    (exec_of_inslen hi _)

/-- The row of the copy length, the last of the command step (R282, R284). -/
theorem step_copyLength {code : Nat} (hf : s.st.field = .copyLen) (hcode : code = copyCode s.st.cmdCode)
    (hlt : code < 24) (hheld : tableAt copyXbits code ≤ s.bitsHeld) :
    step s = .next ((s.advance (tableAt copyXbits code)).copyLengthCode code
      (streamValue s.IN s.st.bitpos % 2 ^ tableAt copyXbits code)).commit := by
  obtain ⟨i, hi⟩ := copylenInstr_of_lt hlt (streamValue s.IN s.st.bitpos % 2 ^ tableAt copyXbits code)
  have hfetch : s.fetch = .element (.copyLen code) := by
    rw [fetch_mainLoop hc hr, DecoderState.fetchMainLoop, hf, hcode]
  exact step_fieldRow hfetch ⟨hr, hf, hcode⟩ (by simp [State.wantsLookahead, hf]) (fun _ => by rw [decode]) hheld hi
    (exec_of_copylen hi _)

end

/-- The machine after a command symbol `c` of `n` bits (R284). -/
def afterSymbol (s : State) (c n : Nat) : State := (s.advance n).command c

/-- The machine after the insert length of symbol `c` too, with extra bits `x` (R284). -/
def afterInsertLength (s : State) (c n x : Nat) : State :=
  ((afterSymbol s c n).advance (tableAt insXbits (insertCode c))).insertLengthCode (insertCode c) x

/-- The machine after the copy length too, with extra bits `y`; the step is still to be committed (R284). -/
def afterCopyLength (s : State) (c n x y : Nat) : State :=
  ((afterInsertLength s c n x).advance (tableAt copyXbits (copyCode c))).copyLengthCode (copyCode c) y

/-- Settles O39: the three rows one after the other, each read where the one before it left the cursor. -/
theorem commandStep : Obligations.CommandStep := by
  rintro s T _ c n x y hc hr hf hckpt hlook hleft hcount hT rfl hsym hn hlt hheld hx hy hfits
  have hmax : tableAt insXbits (insertCode c) ≤ 24 := insXbits_le (insertCode_lt hlt)
  have hmax' : tableAt copyXbits (copyCode c) ≤ 24 := copyXbits_le (copyCode_lt hlt)
  have hroom (p m : Nat) (h : p + m ≤ s.st.bitpos + 63) : m ≤ 8 * s.inLen - p := by
    unfold State.bitsHeld at hheld
    omega
  have hsymbol : step s = .next (afterSymbol s c n) :=
    step_commandSymbol hc hr hf hlook hleft hcount hT hsym hn hlt (hroom _ 15 (by omega))
  have hinsert : step (afterSymbol s c n) = .next (afterInsertLength s c n x) := by
    rw [hx, ← streamValue_advance s.IN s.st.bitpos (by omega)]
    exact step_insertLength (s := afterSymbol s c n) hc hr rfl rfl (insertCode_lt hlt)
      (hroom (s.st.bitpos + n) _ (by omega))
  have hcopy : step (afterInsertLength s c n x) = .next (afterCopyLength s c n x y).commit := by
    rw [hy, ← streamValue_advance s.IN s.st.bitpos (by omega), ← Nat.add_assoc]
    exact step_copyLength (s := afterInsertLength s c n x) hc hr rfl rfl (copyCode_lt hlt)
      (hroom (s.st.bitpos + n + tableAt insXbits (insertCode c)) _ (by omega))
  calc core.run 3 s
      = core.run 2 (afterSymbol s c n) := run_succ_of_step (M := core) hsymbol 2
    _ = core.run 1 (afterInsertLength s c n x) := run_succ_of_step (M := core) hinsert 1
    _ = core.run 0 (afterCopyLength s c n x y).commit := run_succ_of_step (M := core) hcopy 0
    _ = .next (afterCopyLength s c n x y).commit := rfl
    _ = _ := by
      rw [afterCopyLength, copyLengthCode_fits (by exact hfits), commit_of_start rfl, ← hckpt, ← hf]
      rfl

/-! ## Resolved distances (R320 to R324) -/

/-- `PushDistance` writes the next slot of the ring and no other (R323). -/
theorem pushDistance_distRing (st : DecoderState) (d : Nat) :
    (st.pushDistance d).distRing[st.distRbIdx + 1] = d ∧
      ∀ i : Fin 4, i ≠ st.distRbIdx + 1 → (st.pushDistance d).distRing[i] = st.distRing[i] := by
  refine ⟨Vector.getElem_set_self (Fin.isLt _), fun i hi => Vector.getElem_set_ne (Fin.isLt _) i.isLt ?_⟩
  exact fun h => hi (Fin.ext h.symm)

/-- Settles O36: the four outcomes of `Resolve()` exclude each other. -/
theorem resolveOutcomes : Obligations.ResolveOutcomes := by
  rintro s st _ rfl
  rcases resolve_cases s st with ⟨hfar, h⟩ | ⟨hnear, hlong, h⟩ | ⟨hnear, hfits, hkept, h⟩ |
    ⟨hnear, hfits, himp, hsym, h⟩
  case inl =>
    have hnot : ¬ st.distance ≤ min st.pos st.maxBackwardDistance := hfar.not_ge
    exact ⟨fun _ => h, fun hnear => absurd hnear hnot, fun hnear => absurd hnear hnot, fun hnear => absurd hnear hnot⟩
  all_goals refine ⟨fun hfar => absurd hnear hfar.not_ge, ?_⟩
  case inr.inl =>
    exact ⟨fun _ _ => h, fun _ hfits => absurd hlong hfits.not_gt, fun _ hfits => absurd hlong hfits.not_gt⟩
  all_goals refine ⟨fun _ hlong => absurd hlong hfits.not_gt, ?_⟩
  case inr.inr.inl =>
    exact ⟨fun _ _ _ => h, fun _ _ himp hsym => absurd hkept (by simp [himp, hsym])⟩
  case inr.inr.inr =>
    exact ⟨fun _ _ hkept => absurd hkept (by simp [himp, hsym]),
      fun _ _ _ _ => ⟨_, h, pushDistance_distRing st st.distance⟩⟩

/-! ## Copies (R322, R325, R375) -/

theorem fetch_copyLoop {s : State} (hc : s.inCall = true) (hr : s.st.runningState = .copyLoop) :
    s.fetch = s.st.fetchCopy := by
  rw [fetch_of_inCall hc, DecoderState.fetch, hr]

theorem fetch_compoundCopy {s : State} (hc : s.inCall = true) (hr : s.st.runningState = .compoundDictionaryCopy) :
    s.fetch = s.st.fetchCompound := by
  rw [fetch_of_inCall hc, DecoderState.fetch, hr]

/-- The next byte of a compound copy stands where the copy's chunk and offset put it, in whatever chunk (R375). -/
theorem skipChunks_cdAddress (st : DecoderState) (fuel : Nat) : (st.skipChunks fuel).cdAddress = st.cdAddress := by
  induction fuel generalizing st with
  | zero => rfl
  | succ fuel ih =>
    rw [DecoderState.skipChunks]
    split
    case isTrue hend =>
      obtain ⟨-, hend⟩ := hend
      rw [ih, hend]
      rfl
    case isFalse => rfl

/-- The registers after one byte of a compound copy, before finished chunks are stepped over (R375). -/
def compoundByte (st : DecoderState) : DecoderState :=
  { st.emit (st.CD.getD st.cdAddress 0) with
    cdBrCopied := st.cdBrCopied + 1, metaBlockLength := st.metaBlockLength - 1, cdBrOffset := st.cdBrOffset + 1 }

/-- A compound copy that is not finished takes a byte, steps over finished chunks and tests the fence (R375). -/
theorem run_compoundCopy {s : State} (h : s.st.cdBrCopied ≠ s.st.cdBrLength) :
    Internal.run .compoundCopy s =
      { s with st := ((compoundByte s.st).skipChunks 16).fenceTest .compoundDictionaryCopy } := by
  show s.stepCompoundCopy = _
  rw [State.stepCompoundCopy, if_neg h]
  rfl

/-- Settles O44: a step of a copy ends it or emits one byte, and stepping over chunks keeps the next byte's address. -/
theorem copySteps : Obligations.CopySteps := by
  refine ⟨fun s hc => ⟨fun hr hsource => ?fetchCopy, fun hr hsource => ?fetchCompound⟩, fun s hdone => ?copyDone,
    fun s b hleft hb => ?copyByte, fun s hdone => ?compoundDone, fun s b hleft hb => ?compoundByte⟩
  case fetchCopy =>
    rw [fetch_copyLoop hc hr]
    exact if_neg (by omega)
  case fetchCompound =>
    rw [fetch_compoundCopy hc hr]
    exact if_neg fun ⟨hleft, hend⟩ => hsource.elim hleft hend.not_gt
  case copyDone =>
    show s.stepCopy = _
    rw [State.stepCopy, if_pos hdone]
  case copyByte =>
    subst hb
    show s.stepCopy = _
    rw [State.stepCopy, if_neg hleft, fenceTest_eq]
    rfl
  case compoundDone =>
    show s.stepCompoundCopy = _
    rw [State.stepCompoundCopy, if_pos hdone]
  case compoundByte =>
    subst hb
    obtain ⟨index, offset, hskip⟩ := skipChunks_core (compoundByte s.st) 16
    refine ⟨index, offset, ?_, ?_⟩
    · rw [run_compoundCopy hleft, hskip, fenceTest_eq]
      rfl
    · have haddress := skipChunks_cdAddress (compoundByte s.st) 16
      rw [hskip] at haddress
      exact haddress

end Sys2Proof.Proofs

/-! The statements about dictionary references: what an address refers to, the static word under a transform, and the
chunk of a compound reference (44_dictionary.md). -/

namespace Sys2Proof.Proofs

open Sys2Proof.Machine Sys2Proof.Laws

/-! ## What an address refers to (R340, R341, R344) -/

section
variable {st : DecoderState}

/-- A static reference names a transform (R344). -/
theorem staticReference_eq_some (hnear : st.distance ≤ 0x7FFFFFFC) (haddress : 0 ≤ st.dictAddress)
    (hshort : 4 ≤ st.copyLength) (hlong : st.copyLength ≤ 24)
    (hn : transformIndex st.copyLength st.dictAddress.toNat < 121) :
    st.staticReference = some (transformIndex st.copyLength st.dictAddress.toNat) := by
  have hstatic : ¬ (st.distance > Config.maxAllowedDistance ∨ st.dictAddress < 0 ∨ st.copyLength < 4 ∨
      24 < st.copyLength) := by
    simp only [Config.maxAllowedDistance]
    omega
  rw [DecoderState.staticReference, if_neg hstatic]
  exact if_pos hn

/-- Every other reference selects no transform row (R340, R341, R344). -/
theorem staticReference_eq_none
    (h : 0x7FFFFFFC < st.distance ∨ st.dictAddress < 0 ∨ st.copyLength < 4 ∨ 24 < st.copyLength ∨
      121 ≤ transformIndex st.copyLength st.dictAddress.toNat) : st.staticReference = none := by
  unfold DecoderState.staticReference
  split
  case isTrue => rfl
  case isFalse hstatic =>
    have hn : 121 ≤ transformIndex st.copyLength st.dictAddress.toNat := by
      simp only [Config.maxAllowedDistance] at hstatic
      omega
    exact if_neg hn.not_gt

end

section
variable {s : State}

theorem fetch_useDictionary (hc : s.inCall = true) (hr : s.st.runningState = .useDictionary) :
    s.fetch = s.st.fetchDictionary := by
  rw [fetch_of_inCall hc, DecoderState.fetch, hr]

/-- Without a transform row the UseDictionary step fires (R340, R409). -/
theorem step_useDictionary (hc : s.inCall = true) (hr : s.st.runningState = .useDictionary)
    (href : s.st.staticReference = none) : step s = .next s.useDictionary.commit := by
  obtain ⟨-, hinternal, -⟩ := stepRunsTheDecodedInstruction
  exact hinternal s .useDictionary (by rw [fetch_useDictionary hc hr, DecoderState.fetchDictionary, href])

theorem useDictionary_far (hfar : 0x7FFFFFFC < s.st.distance) : s.useDictionary = s.raise .invalidDistance :=
  if_pos hfar

theorem useDictionary_compound (hnear : s.st.distance ≤ 0x7FFFFFFC) (haddress : s.st.dictAddress < 0) :
    s.useDictionary = s.compoundStart (-s.st.dictAddress - 1).toNat :=
  (if_neg hnear.not_gt).trans (if_pos haddress)

theorem useDictionary_outOfRange (hnear : s.st.distance ≤ 0x7FFFFFFC) (haddress : 0 ≤ s.st.dictAddress) :
    s.useDictionary = s.raise .dictionaryAddressOutOfRange :=
  (if_neg hnear.not_gt).trans (if_neg haddress.not_gt)

end

/-- Settles O41: without a transform row the step is UseDictionary's, whose branches exclude each other. -/
theorem dictionaryReferences : Obligations.DictionaryReferences := by
  intro s a hc hr hf hckpt ha
  obtain rfl : a = s.st.dictAddress := ha
  have hstep := step_useDictionary hc hr
  refine ⟨fun hfar => ?tooFar, fun hnear haddress hshort hlong hn => ?static, fun hnear haddress hout => ?outOfRange,
    fun hnear haddress hover => ?overflow, fun hnear haddress htotal hlong => ?tooLong,
    fun hnear haddress htotal hfits => ?compound⟩
  case tooFar =>
    rw [hstep (staticReference_eq_none (.inl hfar)), useDictionary_far hfar, raise_commit]
  case static =>
    rw [fetch_useDictionary hc hr, DecoderState.fetchDictionary, staticReference_eq_some hnear haddress hshort hlong hn]
    rfl
  case outOfRange =>
    rw [hstep (staticReference_eq_none (.inr (.inr hout))), useDictionary_outOfRange hnear haddress, raise_commit]
  all_goals rw [hstep (staticReference_eq_none (.inr (.inl haddress))), useDictionary_compound hnear haddress,
    State.compoundStart]
  case overflow =>
    have htoo : s.st.cdTotalSize < (-s.st.dictAddress - 1).toNat + s.st.copyLength := by omega
    rw [if_pos htoo, raise_commit]
  case tooLong =>
    rw [if_neg (by omega), if_pos hlong, raise_commit]
  case compound =>
    rw [if_neg (by omega), if_neg hfits.not_gt, commit_of_start (by exact hf), ← hckpt]

/-! ## Words and transformed words (R345, R363) -/

/-- The words of each length end within DICT (R343, R345). -/
theorem words_within_dict {len : Nat} (hshort : 4 ≤ len) (hlong : len ≤ 24) :
    tableAt dOffset len + 2 ^ tableAt ndBits len * len ≤ Config.dictBytes := by
  interval_cases len <;> decide

theorem wordIndex_lt (len address : Nat) : wordIndex len address < 2 ^ tableAt ndBits len :=
  Nat.mod_lt _ (Nat.two_pow_pos _)

theorem upperStep_length (body : List Byte) (i : Nat) : (upperStep body i).1.length = body.length := by
  unfold upperStep
  dsimp only
  split
  · dsimp only
    split
    · exact List.length_set
    · rfl
  · split <;> exact List.length_modify ..

theorem upperFrom_length (fuel : Nat) (body : List Byte) (i : Nat) : (upperFrom fuel body i).length = body.length := by
  induction fuel generalizing body i with
  | zero => rfl
  | succ fuel ih =>
    rw [upperFrom]
    split
    · rw [ih, upperStep_length]
    · rfl

/-- A transform drops bytes of the word or changes them in place (R361). -/
theorem transformBody_length_le (kind : TransformKind) (w : List Byte) : (transformBody kind w).length ≤ w.length := by
  cases kind with
  | identity => exact le_rfl
  | omitFirst k => exact List.length_drop.trans_le (Nat.sub_le _ _)
  | omitLast k => exact List.length_take_le' _ _
  | uppercaseFirst => exact (upperStep_length w 0).le
  | uppercaseAll => exact (upperFrom_length _ w 0).le

/-- Prefix and suffix of a transform are at most 13 bytes together (R363). -/
theorem affixes_length_le (n : Nat) : (transformRule n).before.length + (transformRule n).after.length ≤ 13 := by
  have hrules : ∀ r ∈ transforms, r.before.length + r.after.length ≤ 13 := by
    simp only [transforms, List.forall_mem_append]
    decide
  rw [transformRule, List.getD_eq_getElem?_getD]
  cases hn : transforms[n]? with
  | none => exact Nat.zero_le 13
  | some r => exact hrules r (List.mem_of_getElem? hn)

/-- Settles O42: the words of a length fill their part of DICT, and a transform adds at most 13 bytes to a word. -/
theorem staticWordBounds : Obligations.StaticWordBounds := by
  refine ⟨fun len address b hshort hlong hb => ?word, fun n w hw => ?transformed⟩
  case word =>
    have hindex : (wordIndex len address + 1) * len ≤ 2 ^ tableAt ndBits len * len :=
      Nat.mul_le_mul_right len (wordIndex_lt len address)
    have hend := words_within_dict hshort hlong
    rw [Nat.succ_mul] at hindex
    omega
  case transformed =>
    have hbody := transformBody_length_le (transformRule n).kind w
    have haffixes := affixes_length_le n
    rw [transformWord, List.length_append, List.length_append]
    omega

/-! ## The chunk of a compound reference (R372, R375) -/

/-- A sequence that starts at or below `a` and is above it at `n` passes `a` on the way. -/
theorem exists_crossing {f : Nat → Nat} {a n : Nat} (hstart : f 0 ≤ a) (hend : a < f n) :
    ∃ i < n, f i ≤ a ∧ a < f (i + 1) := by
  induction n with
  | zero => exact absurd hend hstart.not_gt
  | succ n ih =>
    by_cases hn : a < f n
    · obtain ⟨i, hi, hcross⟩ := ih hn
      exact ⟨i, hi.trans n.lt_succ_self, hcross⟩
    · exact ⟨n, n.lt_succ_self, le_of_not_gt hn, hend⟩

/-- Where a chunk holds byte `a` of CD, the search finds the first that does (R372). -/
theorem chunkOf_first {st : DecoderState} {a i : Nat} (hi : i < 15)
    (hholds : st.cdOffset i ≤ a ∧ a < st.cdOffset (i + 1)) :
    (st.cdOffset (st.chunkOf a) ≤ a ∧ a < st.cdOffset (st.chunkOf a + 1)) ∧ st.chunkOf a ≤ i := by
  unfold DecoderState.chunkOf
  cases hfind : (List.range Config.cdMaxChunks).find? fun i => st.cdOffset i ≤ a ∧ a < st.cdOffset (i + 1) with
  | none =>
    exact absurd hholds (by simpa using List.find?_eq_none.mp hfind i (List.mem_range.mpr hi))
  | some j =>
    obtain ⟨hj, -, hbefore⟩ := List.find?_range_eq_some.mp hfind
    refine ⟨of_decide_eq_true hj, le_of_not_gt fun hlt => ?_⟩
    simpa [hholds] using hbefore i hlt

/-- Settles O43: offsets from 0 to beyond `a` pass `a` in some chunk, and the search finds the first such chunk. -/
theorem compoundCopyReadsOn : Obligations.CompoundCopyReadsOn := by
  refine ⟨fun st a hchunks hzero _ ha => ?_, skipChunks_cdAddress⟩
  obtain ⟨i, hi, hholds⟩ := exists_crossing (f := st.cdOffset) (hzero.trans_le a.zero_le) ha
  obtain ⟨⟨hbegin, hend⟩, hfirst⟩ := chunkOf_first (hi.trans_le hchunks) hholds
  exact ⟨hbegin, hend, hfirst.trans_lt hi⟩

/-! ## A static word under each transform (R344, R346, R347) -/

/-- Settles O40: a transform row tests the length of its word; the bytes emitted move RB, H and pos alone. -/
theorem transformRows : Obligations.TransformRows := by
  rintro n i s _ hi rfl
  rw [exec_of_transform hi, State.emitWord]
  refine ⟨fun hlong => ?exceeds, fun hfits => ?emitted⟩
  case exceeds => rw [if_pos hlong]
  case emitted =>
    rw [if_neg hfits.not_gt, fenceTest_eq, DecoderState.emitAll, emitAll_eq]
    rfl

end Sys2Proof.Proofs

/-! The statements about the ring buffer and the delivery of output (45_ringbuffer_output.md). -/

namespace Sys2Proof.Proofs

open Sys2Proof.Machine Sys2Proof.Laws

/-! ## Delivery of output (R388) -/

theorem fetch_writeOutput {s : State} (hc : s.inCall = true) (hr : s.st.runningState = .writeOutput) :
    s.fetch = .internal .writeOutput := by
  rw [fetch_of_inCall hc, DecoderState.fetch, hr]

/-- The step delivers, whether or not bytes are left (R388). -/
@[simp] theorem stepWriteOutput_HOSTBUF (s : State) : s.stepWriteOutput.HOSTBUF = s.HOSTBUF ++ s.deliverable := by
  unfold State.stepWriteOutput
  dsimp only
  split
  · rfl
  · rfl

/-- What is delivered is the history from the delivered position on. -/
theorem getElem?_deliverable {s : State} {k : Nat} (hk : k < min (s.st.pos - s.st.flushed) s.st.outCap) :
    s.deliverable[k]? = s.st.H[s.st.flushed + k]? := by
  rw [State.deliverable, List.getElem?_take_of_lt hk, List.getElem?_drop]

/-- Settles O46: the step appends what is deliverable, and asks whether bytes are left. -/
theorem writeOutputDelivers : Obligations.WriteOutputDelivers := by
  refine ⟨fun s => fetch_writeOutput, ?buffer, ?outcome⟩
  case buffer =>
    rintro s _ k hbuffer rfl
    show (k < _ → s.stepWriteOutput.HOSTBUF[k]? = _) ∧ (k < _ → s.stepWriteOutput.HOSTBUF[_]? = _)
    rw [stepWriteOutput_HOSTBUF, ← hbuffer]
    refine ⟨List.getElem?_append_left, fun hk => ?_⟩
    rw [List.getElem?_append_right (Nat.le_add_right _ _), Nat.add_sub_cancel_left, getElem?_deliverable hk]
  case outcome =>
    rintro s _ _ rfl rfl
    exact ⟨fun hleft => if_pos hleft, fun hall => if_neg hall.not_gt⟩

/-! ## The cells of the ring (R34, R381 to R383) -/

/-- Settles O49: a distance inside history and ring leads to one of the last `RS` bytes, which the ring holds. -/
theorem ringReadsHistory : Obligations.RingReadsHistory := by
  intro st d hmirror _ hpositive hhistory hring
  have hcell : (((st.pos : Int) - d) % (st.RS : Int)).toNat = (st.pos - d) % st.RS := by
    rw [← Int.natCast_sub hhistory, ← Int.natCast_emod, Int.toNat_natCast]
  rw [DecoderState.ringBack, hcell]
  exact hmirror.latest (st.pos - d) (by omega) (by omega)

section
variable {st : DecoderState} (hwf : st.RB.wf)
include hwf

/-- One byte is stored at its position's cell, and nowhere else. -/
theorem emit_cells (b : Byte) :
    (st.emit b).RB.read (st.pos % st.RS) = b ∧ ∀ a, a ≠ st.pos % st.RS → (st.emit b).RB.read a = st.RB.read a := by
  refine ⟨?_, fun a ha => ?_⟩
  · rw [emit_RB, Memory.read_write hwf, if_pos rfl]
  · rw [emit_RB, Memory.read_write hwf, if_neg ha]

/-- Bytes emitted in order leave every cell alone that no position of theirs has. -/
theorem emitAll_otherCell {bs : List Byte} {a : Nat} (ha : ∀ k < bs.length, a ≠ (st.pos + k) % st.RS) :
    (st.emitAll bs).RB.read a = st.RB.read a := by
  induction bs generalizing st with
  | nil => rfl
  | cons b bs ih =>
    obtain ⟨-, hother⟩ := emit_cells hwf b
    calc ((st.emit b).emitAll bs).RB.read a
        = (st.emit b).RB.read a := by
          refine ih (Memory.wf_write hwf _ _) fun k hk => ?_
          rw [emit_pos, Nat.add_assoc, Nat.add_comm 1]
          exact ha (k + 1) (by simpa using hk)
      _ = st.RB.read a := hother a (ha 0 (by simp))

/-- Bytes no more than the ring holds, emitted in order, stand each in the cell of its position. -/
theorem emitAll_cell {bs : List Byte} (hfits : bs.length ≤ st.RS) {k : Nat} (hk : k < bs.length) :
    (st.emitAll bs).RB.read ((st.pos + k) % st.RS) = bs.getD k 0 := by
  induction bs generalizing st k with
  | nil => exact absurd hk k.not_lt_zero
  | cons b bs ih =>
    have hwf' : (st.emit b).RB.wf := Memory.wf_write hwf _ _
    simp only [List.length_cons] at hfits hk
    show ((st.emit b).emitAll bs).RB.read _ = _
    cases k with
    | zero =>
      obtain ⟨hcell, -⟩ := emit_cells hwf b
      rw [Nat.add_zero, emitAll_otherCell hwf' fun i hi => ?_]
      · exact hcell
      · rw [emit_pos]
        exact cell_ne (by omega) (show st.pos + 1 + i < st.pos + st.RS by omega)
    | succ k =>
      have hrest := ih hwf' (show bs.length ≤ st.RS by omega) (k := k) (by omega)
      rw [emit_pos, Nat.add_assoc, Nat.add_comm 1] at hrest
      exact hrest

end

/-- Settles O48: a row that emits stores its bytes one by one, and the fence test leaves the ring alone. -/
theorem emittedByteFrame : Obligations.EmittedByteFrame := by
  refine ⟨fun i b s t hi hwf h => ?byte, fun n i s t w hi hw hwf hleft hfits h => ?word⟩
  case byte =>
    have hRB : t.st.RB = (s.st.emit b).RB := by
      rcases hi with rfl | rfl <;> cases h <;> exact fenceTest_RB _ _
    rw [hRB]
    exact emit_cells hwf b
  case word =>
    subst hw
    rw [exec_of_transform hi, State.emitWord, if_neg hleft.not_gt] at h
    cases h
    rw [fenceTest_RB]
    exact ⟨fun k => emitAll_cell hwf hfits, fun a => emitAll_otherCell hwf⟩

/-! ## Undelivered output (R385 to R387) -/

/-- What is produced may end past the lap: it is being delivered, or the session is over (R386, R387). -/
def MayPassLap (st : DecoderState) : Prop := st.runningState = .writeOutput ∨ SessionOver st

theorem bounded_iff {st : DecoderState} :
    st.Bounded ↔ st.pos ≤ st.lapEnd + 36 ∧ (¬ MayPassLap st → st.pos < st.lapEnd) := by
  unfold DecoderState.Bounded
  split
  case h_4 hw hc he =>
    have hlap : ¬ MayPassLap st := by
      rintro (h | h | ⟨k, h⟩)
      exacts [hw h, hc h, he k h]
    exact ⟨fun h => ⟨by omega, fun _ => h⟩, fun h => h.2 hlap⟩
  all_goals
    have hlap : MayPassLap st := by simp [MayPassLap, SessionOver, *]
    exact ⟨fun h => ⟨h, absurd hlap⟩, fun h => h.1⟩

theorem RS_pos (st : DecoderState) : 0 < st.RS := Nat.two_pow_pos _

/-- The lap of the delivered position ends after it, by no more than the ring's size. -/
theorem lapEnd_bounds (st : DecoderState) : st.flushed < st.lapEnd ∧ st.lapEnd ≤ st.flushed + st.RS := by
  have hbegin : st.flushed / st.RS * st.RS ≤ st.flushed := Nat.div_mul_le_self _ _
  have hend : st.flushed < st.flushed / st.RS * st.RS + st.RS := Nat.lt_div_mul_add (RS_pos st)
  rw [DecoderState.lapEnd, Nat.succ_mul]
  omega

theorem lapEnd_mono {a b : DecoderState} (hw : b.windowBits = a.windowBits) (hf : a.flushed ≤ b.flushed) :
    a.lapEnd ≤ b.lapEnd := by
  rw [DecoderState.lapEnd, DecoderState.lapEnd, DecoderState.RS, DecoderState.RS, hw]
  exact Nat.mul_le_mul_right _ (Nat.succ_le_succ (Nat.div_le_div_right hf))

/-- The fence is at the end of the lap, or before it in eager mode (R385; assumption log 26). -/
theorem fence_le_lapEnd (st : DecoderState) : st.fence ≤ st.lapEnd := by
  unfold DecoderState.fence
  dsimp only
  split
  · exact Nat.min_le_left _ _
  · exact le_rfl

theorem bounded_of_delivered {st : DecoderState} (h : st.pos ≤ st.flushed) : st.Bounded := by
  obtain ⟨hlap, -⟩ := lapEnd_bounds st
  exact bounded_iff.mpr ⟨by omega, fun _ => by omega⟩

/-- With nothing produced the bound stays, where what stands past the lap goes on to be delivered or is delivered. -/
theorem bounded_of_silent {a b : DecoderState} (ha : a.Bounded) (hpos : b.pos = a.pos) (hf : a.flushed ≤ b.flushed)
    (hw : b.windowBits = a.windowBits) (hpast : MayPassLap a → MayPassLap b ∨ b.pos ≤ b.flushed) : b.Bounded := by
  obtain ⟨hslack, hstrict⟩ := bounded_iff.mp ha
  have hlap := lapEnd_mono hw hf
  by_cases hpass : MayPassLap a
  · rcases hpast hpass with hb | hall
    · exact bounded_iff.mpr ⟨by omega, absurd hb⟩
    · exact bounded_of_delivered hall
  · have hin := hstrict hpass
    exact bounded_iff.mpr ⟨by omega, fun _ => by omega⟩

/-- The control state goes on from delivery when everything is delivered, and never from a session that is over, but for
a reset (R41, R388). -/
theorem mayPassLap_of_legalMove {a b : DecoderState} (h : LegalMove a b) (ha : MayPassLap a) :
    MayPassLap b ∨ b.pos ≤ b.flushed := by
  rcases h with hsame | h
  · exact .inl (by simpa only [MayPassLap, SessionOver, hsame] using ha)
  · cases h
    case delivered hall => exact .inr hall.ge
    case error k _ hb => exact .inl (.inr (.inr ⟨k, hb⟩))
    case close hb => exact .inl (.inr (.inl hb))
    case reset hb => exact .inr (hb ▸ le_rfl)
    -- every other row of the table begins in a state that decodes
    all_goals
      exfalso
      rcases ha with ha | ha | ⟨k, ha⟩ <;> simp_all

/-- An element step emits one byte, or a word of 24 bytes at most and its transform's 13 (R363). -/
theorem emitted_length_le {bs : List Byte}
    (h : bs.length ≤ 1 ∨ ∃ m w, w.length ≤ 24 ∧ bs = transformWord w m) : bs.length ≤ 37 := by
  rcases h with h | ⟨m, w, hw, rfl⟩
  · omega
  · obtain ⟨-, htransformed⟩ := staticWordBounds
    exact htransformed m w hw

/-- From inside the lap an element step passes its end by 36 bytes at most, and then the fence has been reached. -/
theorem bounded_emits {a b : DecoderState} {bs : List Byte} (ha : a.pos < a.lapEnd) (he : Emits a b bs)
    (hw : b.windowBits = a.windowBits) (hlen : bs.length ≤ 37) : b.Bounded := by
  have hpos := he.pos
  have hlap := lapEnd_mono hw he.flushed.ge
  have hfence := he.fence
  split at hfence
  · exact bounded_iff.mpr ⟨by omega, absurd (.inl hfence)⟩
  · have hbefore := fence_le_lapEnd b
    exact bounded_iff.mpr ⟨by omega, fun _ => by omega⟩

theorem bounded_row {a b : DecoderState} {n : Nat} (ha : a.Bounded) (hi : RegsInv a) (hm : MirrorsHistory a)
    (hin : ¬ MayPassLap a) (hrow : Row a n b) : b.Bounded := by
  cases hrow.outcome with
  | window hr hq =>
    have hnone : a.pos = 0 := by rw [hi.produced, hm.fresh (.inr hr)]; rfl
    exact bounded_of_delivered (by rw [hq.pos, hnone]; exact Nat.zero_le _)
  | quiet _ hq hs =>
    exact bounded_of_silent ha hq.pos hq.flushed.ge hs.windowBits.symm fun hpass => absurd hpass hin
  | emits _ bs he hs _ _ hlen =>
    exact bounded_emits ((bounded_iff.mp ha).2 hin) he hs.windowBits.symm (emitted_length_le hlen)

/-- WriteOutput stays where bytes are left, and else everything is delivered (R388). -/
theorem bounded_writeOutput {s : State} (h : s.st.Bounded) (hr : s.st.runningState = .writeOutput) :
    s.stepWriteOutput.st.Bounded := by
  unfold State.stepWriteOutput
  dsimp only
  split
  · exact bounded_of_silent h rfl (silent_deliverOutput s).flushed rfl fun _ => .inl (.inl hr)
  · exact bounded_of_delivered (le_of_not_gt ‹_›)

section
variable {s t : State} (hi : BaseInv s) (hring : RingInv s) (hb : BoundedInv s)
include hi hring hb

/-- A row, or an element step without one, keeps the registers within the bound. -/
theorem bounded_elementStep {n : Nat} (hc : s.inCall = true) (h : step s = .next t) (hrow : Row s.st n t.st) :
    t.st.Bounded := by
  by_cases hr : s.st.runningState = .writeOutput
  · obtain ⟨-, hinternal, -⟩ := stepRunsTheDecodedInstruction
    rw [hinternal s .writeOutput (fetch_writeOutput hc hr)] at h
    cases h
    rw [commit_st]
    exact bounded_writeOutput hb.1 hr
  · exact bounded_row hb.1 hi.regs hring.1 (not_or.mpr ⟨hr, not_sessionOver_of_inCall hc h⟩) hrow

theorem boundedInv_step (h : step s = .next t) : BoundedInv t := by
  obtain ⟨hst, hckpt⟩ := hb
  cases step_moves hi h with
  | silent a source quiet legal hc =>
    obtain ⟨-, -, -, -, -, hrun, -⟩ := inv_base hi
    have hsame : a.runningState = s.st.runningState := by rcases source with rfl | rfl; exacts [rfl, hrun]
    refine ⟨?_, fun c ht => hckpt c (hc c ht).1⟩
    refine bounded_of_silent (holds_source source hst hckpt) quiet.pos quiet.flushed quiet.windowBits fun hpass => ?_
    exact mayPassLap_of_legalMove legal (by simpa only [MayPassLap, SessionOver, hsame] using hpass)
  | row n hcall row hc =>
    refine ⟨bounded_elementStep hi hring ⟨hst, hckpt⟩ hcall h row, fun c ht => ?_⟩
    rw [hc] at ht
    split at ht
    · cases ht
    · exact Option.some.inj ht ▸ holds_base hst hckpt
  | reset _ regs hc => exact ⟨regs ▸ bounded_reset, by simp [hc]⟩

end

/-- Settles O53: an element step begins inside the lap and emits at most 37 bytes, and what ends past the lap is delivered
before the next one; the lap ends at most `RS` bytes after the delivered position. -/
theorem outputStaysBounded : Obligations.OutputStaysBounded := by
  refine ⟨fun s t hi hring hb h => boundedInv_step hi.base hring hb h, fun st hst => ?_⟩
  obtain ⟨hslack, -⟩ := bounded_iff.mp hst
  obtain ⟨-, hlap⟩ := lapEnd_bounds st
  omega

end Sys2Proof.Proofs

/-! The statements about the host's commands (46_session.md). -/

namespace Sys2Proof.Proofs

open Sys2Proof.Machine Sys2Proof.Laws

/-! ## Commands by the state of the session (R407, R408) -/

/-- A failed session has a negative tag (R20). -/
theorem not_sessionOver_of_live {st : DecoderState} (hlive : 0 ≤ st.runningState.tag)
    (hopen : st.runningState ≠ .closed) : ¬ SessionOver st := by
  rintro (hclosed | ⟨k, hfailed⟩)
  · exact hopen hclosed
  · rw [hfailed] at hlive
    cases k <;> exact absurd hlive (by decide)

section
variable {s : State} {legal : RunningState} {misuse : ErrorKind} {effect : State → State}
variable (hlive : ¬ SessionOver s.st)
include hlive

theorem commandIn_of_live : s.commandIn legal misuse effect =
    if s.st.runningState = legal then effect s else (s.raise misuse).answer (.error misuse) := by
  unfold State.commandIn
  split
  case h_1 hclosed => exact absurd (.inl hclosed) hlive
  case h_2 k hfailed => exact absurd (.inr ⟨k, hfailed⟩) hlive
  case h_3 => rfl

theorem commandIn_misuse (hr : s.st.runningState ≠ legal) :
    s.commandIn legal misuse effect = (s.raise misuse).answer (.error misuse) := by
  rw [commandIn_of_live hlive, if_neg hr]

theorem beginCall_of_live (hr : s.st.runningState ≠ .uninitialized) (cap : Nat) :
    s.beginCall cap = { s with st := { s.st with outCap := cap, outCount := 0 }, HOSTBUF := [], inCall := true } := by
  unfold State.beginCall
  split
  case h_1 hclosed => exact absurd (.inl hclosed) hlive
  case h_2 k hfailed => exact absurd (.inr ⟨k, hfailed⟩) hlive
  case h_3 hfresh => exact absurd hfresh hr
  case h_4 => rfl

end

/-- A command has its effect in the live state it is legal in. -/
theorem commandIn_legal {s : State} {legal : RunningState} {misuse : ErrorKind} {effect : State → State}
    (hlive : 0 ≤ legal.tag) (hopen : legal ≠ .closed) (hr : s.st.runningState = legal) :
    s.commandIn legal misuse effect = effect s := by
  subst hr
  rw [commandIn_of_live (not_sessionOver_of_live hlive hopen), if_pos rfl]

theorem beginCall_uninitialized {s : State} (hr : s.st.runningState = .uninitialized) (cap : Nat) :
    s.beginCall cap = (s.raise .invalidRuntimeStateTransition).answer
      (.decompressed s.base.outCount (.error .invalidRuntimeStateTransition)) := by
  rw [State.beginCall, hr]

/-- A closed or failed session turns commands away with the kind `k` (R407, R454). -/
def TurnsAway (s : State) (k : ErrorKind) : Prop :=
  s.st.runningState = .closed ∧ k = .alreadyClosed ∨ s.st.runningState = .error k

theorem commandIn_turnedAway {s : State} {k : ErrorKind} (h : TurnsAway s k) (legal : RunningState)
    (misuse : ErrorKind) (effect : State → State) : s.commandIn legal misuse effect = s.answer (.error k) := by
  rcases h with ⟨hr, rfl⟩ | hr <;> rw [State.commandIn, hr]

theorem beginCall_turnedAway {s : State} {k : ErrorKind} (h : TurnsAway s k) (cap : Nat) :
    s.beginCall cap = s.answer (.decompressed 0 (.error k)) := by
  rcases h with ⟨hr, rfl⟩ | hr <;> rw [State.beginCall, hr]

/-! ## `Init` (R401) -/

/-- Settles O4: `Init` is legal in Uninitialized only. -/
theorem initBindsTheSource : Obligations.InitBindsTheSource := by
  refine ⟨fun src s hr => ?fresh, fun src s hlive hr hopen => ?again⟩
  case fresh => exact congrArg Host.Outcome.next (commandIn_legal (by decide) (by decide) hr)
  case again => exact congrArg Host.Outcome.next (commandIn_misuse (not_sessionOver_of_live hlive hopen) hr)

/-! ## The configuration commands (R402 to R404) -/

section
variable {s : State} (hr : s.st.runningState = .initialized)
include hr

theorem exec_enableLargeWindow : exec .enableLargeWindow s = .next s.allowLargeWindow :=
  congrArg Host.Outcome.next (commandIn_legal (by decide) (by decide) hr)

theorem exec_enableEagerOutput : exec .enableEagerOutput s = .next s.setEager :=
  congrArg Host.Outcome.next (commandIn_legal (by decide) (by decide) hr)

theorem exec_attachDictionaryChunk (chunk : List Byte) :
    exec (.attachDictionaryChunk chunk) s = .next (s.attachChunk chunk) :=
  congrArg Host.Outcome.next (commandIn_legal (by decide) (by decide) hr)

end

theorem allowLargeWindow_idem (s : State) : s.allowLargeWindow.allowLargeWindow = s.allowLargeWindow := by
  simp only [State.allowLargeWindow, ← Bool.or_assoc, Bool.or_self]

/-- Settles O5: the flags are set in Initialized only, and setting one again leaves it set. -/
theorem configurationCommands : Obligations.ConfigurationCommands := by
  refine ⟨fun s hr => ⟨?large, exec_enableEagerOutput hr, fun t ht => ?largeAgain, fun t ht => ?eagerAgain⟩, ?misplaced⟩
  case large =>
    rw [exec_enableLargeWindow hr, State.allowLargeWindow]
    cases s.params.largeWindowSupported <;> rfl
  case largeAgain =>
    obtain rfl : s.allowLargeWindow = t := by simpa only [exec_enableLargeWindow hr, Host.Outcome.next.injEq] using ht
    have hagain : s.allowLargeWindow.st.runningState = .initialized := hr
    rw [exec_enableLargeWindow hagain, allowLargeWindow_idem]
  case eagerAgain =>
    obtain rfl : s.setEager = t := by simpa only [exec_enableEagerOutput hr, Host.Outcome.next.injEq] using ht
    exact exec_enableEagerOutput hr
  case misplaced =>
    intro chunk i s hi hlive hr hopen
    have hnotOver := not_sessionOver_of_live hlive hopen
    rcases hi with rfl | rfl | rfl <;> exact congrArg Host.Outcome.next (commandIn_misuse hnotOver hr)

theorem attachChunk_overflow {s : State} {chunk : List Byte}
    (h : s.st.cdNumChunks = Config.cdMaxChunks ∨ s.params.cdCap < s.st.cdTotalSize + chunk.length) :
    s.attachChunk chunk = (s.raise .compoundDictionaryOverflow).answer (.error .compoundDictionaryOverflow) :=
  if_pos h

theorem attachChunk_fits {s : State} {chunk : List Byte} (hnum : s.st.cdNumChunks < Config.cdMaxChunks)
    (hfits : s.st.cdTotalSize + chunk.length ≤ s.params.cdCap) :
    s.attachChunk chunk =
      { s with
        st := { s.st with
          CD := s.st.CD ++ chunk
          cdNumChunks := s.st.cdNumChunks + 1
          cdChunkOffsets := s.st.cdChunkOffsets.setIfInBounds (s.st.cdNumChunks + 1)
            (s.st.cdTotalSize + chunk.length) }
        result := .ok } :=
  if_neg (not_or.mpr ⟨hnum.ne, hfits.not_gt⟩)

/-- Settles O6: the chunk's end is stored at the next index, which the sixteen offsets still hold. -/
theorem attachDictionaryChunk : Obligations.AttachDictionaryChunk := by
  intro chunk s hr
  rw [exec_attachDictionaryChunk hr]
  refine ⟨fun hover => ?overflow, fun hnum hfits => ?appended⟩
  case overflow => exact congrArg Host.Outcome.next (attachChunk_overflow hover)
  case appended =>
    refine ⟨_, congrArg Host.Outcome.next (attachChunk_fits hnum hfits), ?stored, fun i hi => ?kept⟩
    case stored => exact Vector.getElem?_setIfInBounds_self_of_lt (Nat.succ_lt_succ hnum)
    case kept => exact Vector.getElem?_setIfInBounds_ne hi.symm

/-! ## `Decompress` and `Close` (R405, R406) -/

/-- Settles O7: the call begins in every live state but Uninitialized. -/
theorem decompressBegins : Obligations.DecompressBegins := by
  refine ⟨fun cap s hlive hr hopen => ?begins, fun cap s hr => ?uninitialized⟩
  case begins => exact congrArg Host.Outcome.next (beginCall_of_live (not_sessionOver_of_live hlive hopen) hr cap)
  case uninitialized => exact congrArg Host.Outcome.next (beginCall_uninitialized hr cap)

/-- Settles O8: every command but `Reset` and `Close` is turned away with the session's kind. -/
theorem closedOrFailedSession : Obligations.ClosedOrFailedSession := by
  refine ⟨fun s => rfl, fun s k hkind => ?_⟩
  have haway := commandIn_turnedAway hkind
  refine ⟨fun src => ?init, ?large, ?eager, fun chunk => ?attach, fun cap => ?decompress⟩
  case decompress => exact congrArg Host.Outcome.next (beginCall_turnedAway hkind cap)
  case init | large | eager | attach => exact congrArg Host.Outcome.next (haway _ _ _)

end Sys2Proof.Proofs

/-! The statements about reset (70_reset_and_hazards.md). -/

namespace Sys2Proof.Proofs

open Sys2Proof.Machine Sys2Proof.Laws

/-! ## What `Reset` leaves (R480, R481, R484) -/

theorem perCat_get_const {α : Type} (x : α) (k : Cat) : PerCat.get ⟨x, x, x⟩ k = x := by
  cases k <;> rfl

/-- Settles O1: the ring holds no byte beyond the empty history, and each category has the same block counters. -/
theorem resetValues : Obligations.ResetValues := by
  refine ⟨rfl, rfl, fun a => ?ringZero, rfl, rfl, rfl, rfl, rfl, rfl, rfl, rfl, rfl, fun k => ?blockCounters⟩
  case ringZero => exact mirrorsHistory_reset.untouched a (Nat.zero_le a)
  case blockCounters =>
    exact ⟨perCat_get_const 1 k, perCat_get_const 0 k, perCat_get_const 1 k, perCat_get_const 0 k⟩

/-- `Reset` has its effect in every state, closed and failed ones included (R480). -/
theorem exec_reset (s : State) : exec .reset s = .next s.hardReset := rfl

/-- Settles O2: the machine after reset, with the host's own fields put back, is what `hardReset` builds. -/
theorem resetCommand : Obligations.ResetCommand := exec_reset

end Sys2Proof.Proofs
